-- ==== Sys2Proof/Word.lean ====
section
/-! DEFINITION. The words of the host bus and their widths (20_memory.md R37, 10_state.md R14). -/

namespace Sys2Proof

/-- A 32-bit bus word or register (R14, R37). -/
abbrev Word := BitVec 32

/-- One byte of a buffer window (R32). -/
abbrev Byte := BitVec 8

/-- A byte address of the host port (R37). -/
abbrev BusAddr := BitVec 20

/-- The four byte enables BE[3:0] of a bus write (R37). -/
abbrev ByteEnables := BitVec 4

end Sys2Proof
end

