-- ==== Sys2Proof/Config.lean ====
section
/-! DEFINITION. What one GPVO instance fixes: parameter sets (00_scope.md R6, R7), build parameters (R8), the active
configuration's type (10_state.md R25) and the deterministic collaborators (R10). The spec gives no value of any of
them (91_not_in_source.md N1), so the two constants at the end have no body. -/

namespace Sys2Proof

/-- The two variants of the scheme family (R2). -/
inductive Variant where
  | plain
  | recovery
  deriving DecidableEq, Repr, Inhabited

/-- Coding of a packed element (R9, R52). -/
inductive Coding where
  | none
  | huffman
  deriving DecidableEq, Repr, Inhabited

/-- REDUCTION, the ring-arithmetic implementation; no result depends on it (R52, D42). -/
inductive Reduction where
  | ref
  | barrett
  | fp
  | hw
  deriving DecidableEq, Repr, Inhabited

/-- GSO_PREC, the three Gram-Schmidt precisions (R52). -/
inductive GsoPrec where
  | g0
  | g1
  | g2
  deriving DecidableEq, Repr, Inhabited

/-- OMODE, the random-oracle construction (R52). -/
inductive OracleMode where
  | csprng
  | xof
  deriving DecidableEq, Repr, Inhabited

/-- BITORDER, the order of stream bits inside a byte (R8, R69; D12). -/
inductive BitOrder where
  | msbFirst
  | lsbFirst
  deriving DecidableEq, Repr, Inhabited

/-- RING_POLY (R8, R64; D18): x^N + 1, or another monic polynomial of degree N given by its coefficients below
x^N, lowest first (unlisted ones are 0). One list serves every parameter set, each with its own N (log 19). -/
inductive RingPoly where
  | negacyclic
  | monic (low : List Int)
  deriving DecidableEq, Repr, Inhabited

/-- BASIS_LAYOUT (R8, R86; D19): the NTRU layout, or another one, known only by a number. -/
inductive BasisLayout where
  | ntru
  | other (id : Nat)
  deriving DecidableEq, Repr, Inhabited

/-- KG_SD_DIVISOR, N or N-1 (R8, R101; D21). -/
inductive SdDivisor where
  | n
  | nMinusOne
  deriving DecidableEq, Repr, Inhabited

/-- Element kinds the Huffman coder knows (R10). -/
inductive HuffKind where
  | skFg
  | sig
  deriving DecidableEq, Repr, Inhabited

/-- One parameter set PS(v, i) (R6). BD is a rational (log 11); the rules read it through BD_SQ alone (R67, D17). -/
structure ParamSet where
  n : Nat
  q : Nat
  qBits : Nat
  fgBits : Nat
  fguBits : Nat
  k : Nat
  bd : Rat
  bdSq : Nat
  hashDefault : Nat
  digestDefault : Nat
  signSigma : Rat
  deriving DecidableEq, Repr, Inhabited

/-- W = Q_BITS - 1 (R7). -/
def ParamSet.w (ps : ParamSet) : Nat := ps.qBits - 1

/-- L1, the bits of m1: (N-K)·W for RECOVERY, 0 for PLAIN (R7). -/
def ParamSet.l1 (ps : ParamSet) : Variant → Nat
  | .plain => 0
  | .recovery => (ps.n - ps.k) * ps.w

/-- The constraints on a parameter set of variant `v` that name the set alone (R7), and what ties BD_SQ to BD (R6). R7
bounds FG_BITS and FGU_BITS from below only, and so does this (log 28). -/
def ParamSet.wf (ps : ParamSet) (v : Variant) : Bool :=
  decide (1 ≤ ps.n) && decide (2 ^ (ps.qBits - 1) ≤ ps.q) && decide (ps.q < 2 ^ ps.qBits) && decide (3 ≤ ps.q)
    && decide (2 ≤ ps.fgBits) && decide (2 ≤ ps.fguBits) && decide (ps.qBits ≤ 32)
    && (match v with
        | .plain => decide (ps.k = 0)
        | .recovery => decide (1 ≤ ps.k) && decide (ps.k ≤ ps.n - 1))
    && decide (0 ≤ ps.bd) && decide (ps.bdSq = (ps.bd * ps.bd).ceil.toNat)

/-- ACFG, the configuration CONFIGURE latches (10_state.md R25). -/
structure Acfg where
  variant : Variant
  pset : Fin 2
  keep : Bool
  skCoding : Coding
  sigCoding : Coding
  sampPrec : Nat
  sampImpl : BitVec 3
  reduction : Reduction
  gsoPrec : GsoPrec
  hashId : Nat
  dlen : Nat
  omode : OracleMode
  deriving DecidableEq, Repr

/-- ACFG with every field 0, its value at reset and after DESTROY (R25, R85). -/
def Acfg.zero : Acfg :=
  { variant := .plain, pset := 0, keep := false, skCoding := .none, sigCoding := .none, sampPrec := 0,
    sampImpl := 0, reduction := .ref, gsoPrec := .g0, hashId := 0, dlen := 0, omode := .csprng }

/-- The oracle configuration oc = (HASH_ID, DLEN, OMODE) (R10, R25). -/
structure Oracle where
  hashId : Nat
  dlen : Nat
  omode : OracleMode
  deriving DecidableEq, Repr

/-- The oracle configuration of ACFG (R25). -/
def Acfg.oracle (a : Acfg) : Oracle := { hashId := a.hashId, dlen := a.dlen, omode := a.omode }

/-- The build parameters of one instance (R8) and its four parameter sets (R2). `incompat` lists the configurations
CFG_COMPAT refuses (30_encoding.md R54); `keepNtt` says whether the build keeps PK_NTT (R28, I22). -/
structure Build where
  nMax : Nat
  msgCap : Nat
  sigCap : Nat
  pkCap : Nat
  skCap : Nat
  keygen : Bool
  sign : Bool
  verify : Bool
  huffman : Bool
  hwntt : Bool
  scratchW : Nat
  bitOrder : BitOrder
  ringPoly : RingPoly
  basisLayout : BasisLayout
  sdDivisor : SdDivisor
  keepNtt : Bool
  incompat : List Acfg
  plain0 : ParamSet
  plain1 : ParamSet
  recovery0 : ParamSet
  recovery1 : ParamSet
  deriving DecidableEq, Repr

/-- The parameter-set table PS(v, i) (R2, R6). -/
def Build.pset (b : Build) (v : Variant) (i : Fin 2) : ParamSet :=
  match v with
  | .plain => if i = 0 then b.plain0 else b.plain1
  | .recovery => if i = 0 then b.recovery0 else b.recovery1

/-- CFG_COMPAT (R54): every configuration is legal but those the build lists. -/
def Build.cfgCompat (b : Build) (a : Acfg) : Bool := !b.incompat.contains a

/-- A buffer capacity: 1 to 65536 bytes, a multiple of 4 (R39, D10). -/
def capOk (c : Nat) : Bool := decide (1 ≤ c) && decide (c ≤ 65536) && decide (c % 4 = 0)

/-- A scratch word of `w` bits holds every value R31 puts in one: a sample or a public coefficient in (-Q, Q) and a key
coefficient (log 13). -/
def ParamSet.fitsWord (ps : ParamSet) (w : Nat) : Bool :=
  decide (ps.qBits + 1 ≤ w) && decide (ps.fgBits ≤ w) && decide (ps.fguBits ≤ w)

/-- The design-time constraints of a build: its sets (R7, R84), its capacities (R39, D10), an N_MAX that its 32-bit
register can show (R24), and scratch words that hold the values of its sets (R31; log 13). -/
def Build.wf (b : Build) : Bool :=
  b.plain0.wf .plain && b.plain1.wf .plain && b.recovery0.wf .recovery && b.recovery1.wf .recovery
    && capOk b.msgCap && capOk b.sigCap && capOk b.pkCap && capOk b.skCap && decide (b.nMax < 2 ^ 32)
    && b.plain0.fitsWord b.scratchW && b.plain1.fitsWord b.scratchW && b.recovery0.fitsWord b.scratchW
    && b.recovery1.fitsWord b.scratchW

/-- The deterministic collaborators as functions without laws (R10). Each oracle is given coefficient by
coefficient; its range is imposed where it is called (Machine/Operands.lean, Machine/Basis.lean). `expandOther` gets
the layout's number and the key as the list f, g, F, G (R86). -/
structure Collab where
  roMap : ParamSet → Oracle → List Byte → Nat → Nat
  roTag : ParamSet → Oracle → List Byte → Nat → Nat
  mix : ParamSet → Oracle → List Int → Nat → Nat
  gsRows : List (List Int) → GsoPrec → Nat → Nat → Rat
  gsNorm : List (List Int) → GsoPrec → Nat → Nat × Nat
  huffEnc : HuffKind → List Int → Nat → List Bool
  huffDec : HuffKind → List Bool → Nat → Nat → Nat → Option ((Nat → Int) × Nat)
  expandOther : Nat → ParamSet → List (List Int) → Nat → Nat → Int
  transform : ParamSet → List Int → Nat → Int
  deriving Inhabited

/-- The toy plain set of 95_test_vectors.md section 1.2. It shows that the constraints can be met; nothing in the
model reads it but the tests. -/
def toyPlain : ParamSet :=
  { n := 4, q := 17, qBits := 5, fgBits := 4, fguBits := 6, k := 0, bd := 10, bdSq := 100, hashDefault := 1,
    digestDefault := 32, signSigma := 3 }

/-- The toy recovery set of 95_test_vectors.md section 1.2. -/
def toyRecovery : ParamSet := { toyPlain with k := 1 }

/-- The toy build of 95_test_vectors.md section 1.1. -/
def toyBuild : Build :=
  { nMax := 4, msgCap := 16, sigCap := 8, pkCap := 4, skCap := 12, keygen := true, sign := true, verify := true,
    huffman := false, hwntt := false, scratchW := 32, bitOrder := .msbFirst, ringPoly := .negacyclic,
    basisLayout := .ntru, sdDivisor := .n, keepNtt := false, incompat := [], plain0 := toyPlain, plain1 := toyPlain,
    recovery0 := toyRecovery, recovery1 := toyRecovery }

/-- A build that meets its design-time constraints. -/
structure CheckedBuild where
  build : Build := toyBuild
  ok : build.wf = true := by decide +kernel
  deriving Inhabited

/-- The build of the instance the model is of: some build that meets its constraints, no more is known (R6, R8). -/
opaque Config.checkedBuild : CheckedBuild

/-- The build parameters and parameter sets of this instance. -/
def Config.build : Build := Config.checkedBuild.build

/-- The deterministic collaborators of this instance: free functions (R10). -/
opaque Config.collab : Collab

end Sys2Proof
end

