-- ==== Sys2Proof/Syntax.lean ====
section
/-! DEFINITION. The eleven commands (30_encoding.md R50). A command has no operand fields: every operand is
implicit (R49). -/

namespace Sys2Proof

/-- One constructor per row of spec/opcode_table.json, in the table's order (R50). -/
inductive Instr where
  /-- CONFIGURE, OPC 0x01 (R83). -/
  | configure
  /-- DESTROY, OPC 0x02 (R85). -/
  | destroy
  /-- KEYGEN, OPC 0x10 (R96). -/
  | keygen
  /-- LOAD_SK, OPC 0x11 (R105). -/
  | loadSk
  /-- LOAD_PK, OPC 0x12 (R106). -/
  | loadPk
  /-- STORE_SK, OPC 0x13 (R107). -/
  | storeSk
  /-- STORE_PK, OPC 0x14 (R108). -/
  | storePk
  /-- SIGN, OPC 0x20 (R109). -/
  | sign
  /-- SIGN_REC, OPC 0x21 (R110). -/
  | signRec
  /-- VERIFY, OPC 0x30 (R114). -/
  | verify
  /-- VERIFY_REC, OPC 0x31 (R115). -/
  | verifyRec
  deriving DecidableEq, Repr

end Sys2Proof
end

