-- ==== Sys2Proof/WellFormed.lean ====
section
/-! DEFINITION. What a command word must satisfy to be a command (30_encoding.md R49 - R51). A decoded command has no
operand, so every term of Instr is well formed. The checks on parameter sets and builds are ParamSet.wf, capOk and
Build.wf of Config.lean (R7, R39). -/

namespace Sys2Proof

/-- RSV, bits [31:8] of a command word (R49). -/
def cwRsv (w : Word) : BitVec 24 := w.extractLsb' 8 24

/-- OPC, bits [7:0] of a command word (R49). -/
def cwOpc (w : Word) : Byte := w.extractLsb' 0 8

/-- The eleven OPC values of R50. -/
def opcodes : List Byte := [0x01, 0x02, 0x10, 0x11, 0x12, 0x13, 0x14, 0x20, 0x21, 0x30, 0x31]

/-- A legal command word: RSV = 0 and OPC one of R50 (R51). -/
def wordWellFormed (w : Word) : Bool := decide (cwRsv w = 0) && opcodes.contains (cwOpc w)

/-- A command has no operand field that could be out of range (R49). -/
def Instr.wellFormed : Instr → Bool
  | .configure | .destroy | .keygen | .loadSk | .loadPk | .storeSk | .storePk | .sign | .signRec | .verify
  | .verifyRec => true

end Sys2Proof
end

