-- ==== Sys2Proof/Decode.lean ====
section
/-! DEFINITION. Decoding of a command word in state DISPATCH (30_encoding.md R49 - R51) and its encoder. -/

namespace Sys2Proof

/-- Why a word is no command (R51). -/
inductive DecodeError where
  /-- RSV, bits [31:8], is not 0. -/
  | reservedBits
  /-- OPC is not a value of R50. -/
  | unknownOpcode
  deriving DecidableEq, Repr

/-- The command an OPC value selects (R50). -/
def decodeOpc (opc : Byte) : Option Instr :=
  match opc.toNat with
  | 0x01 => some .configure
  | 0x02 => some .destroy
  | 0x10 => some .keygen
  | 0x11 => some .loadSk
  | 0x12 => some .loadPk
  | 0x13 => some .storeSk
  | 0x14 => some .storePk
  | 0x20 => some .sign
  | 0x21 => some .signRec
  | 0x30 => some .verify
  | 0x31 => some .verifyRec
  | _ => none

/-- The decoder: total on every word, all 32 bits significant (R49, R50, R51). -/
def decode (w : Word) : Except DecodeError Instr :=
  if cwRsv w = 0 then
    match decodeOpc (cwOpc w) with
    | some i => .ok i
    | none => .error .unknownOpcode
  else .error .reservedBits

/-- The OPC of a command (R50). -/
def opcodeOf : Instr → Byte
  | .configure => 0x01
  | .destroy => 0x02
  | .keygen => 0x10
  | .loadSk => 0x11
  | .loadPk => 0x12
  | .storeSk => 0x13
  | .storePk => 0x14
  | .sign => 0x20
  | .signRec => 0x21
  | .verify => 0x30
  | .verifyRec => 0x31

/-- The command word of a command: OPC with RSV = 0 (R50). -/
def encode (i : Instr) : Word := (0 : BitVec 24) ++ opcodeOf i

/-- The instruction the decoder reads from an instruction of the table's numbering: one 32-bit word whose bits above
`nbits` are 0 (R49: a command word is exactly 32 bits). -/
def decodeTableWord (nbits w : Nat) : Option Instr :=
  match decode (BitVec.ofNat 32 (w % 2 ^ nbits)) with
  | .ok i => some i
  | .error _ => none

end Sys2Proof
end

