-- ==== Sys2Proof/Machine/State.lean ====
section
/-! DEFINITION. The state of the block as plain data (10_state.md), the state after reset (70_reset_and_hazards.md R139),
and the reasons a step can stop. -/

namespace Sys2Proof.Machine

/-- The FSM states (30_encoding.md R55); `st` holds one of them (R34). -/
inductive Fsm where
  | unconfigured
  | ready
  | dispatch
  | finish
  | cfValidate
  | cfTeardown
  | kgGenerate
  | kgBasis
  | kgSample
  | kgTest
  | kgCommit
  | kyDecode
  | kyBasis
  | kyEncode
  | sgOracle
  | sgBasis
  | sgSample
  | sgEncode
  | sgCompact
  | vfDecode
  | vfOracle
  | vfNorm
  | vfRecon
  | vfRecover
  | vfMerge
  | vfTag
  deriving DecidableEq, Repr

/-- The outcome codes of STATUS.ERRCODE (60_exceptions.md R120). -/
inductive ErrCode where
  | none
  | nullPointer
  | outOfBounds
  | disabledAtCompileTime
  | samplingFailure
  | verificationRejected
  | functionFailure
  | illegalCommand
  deriving DecidableEq, Repr

/-- The fields of STATUS that are stored (R19). FSM_STATE is `State.st`; bit 11 reads 0. -/
structure Status where
  busy : Bool
  done : Bool
  err : Bool
  accept : Bool
  reject : Bool
  configured : Bool
  skValid : Bool
  pkValid : Bool
  basisValid : Bool
  overrun : Bool
  busErr : Bool
  errcode : ErrCode
  lastOp : Byte
  deriving DecidableEq, Repr

/-- STATUS = 0 (R139). -/
def Status.zero : Status :=
  { busy := false, done := false, err := false, accept := false, reject := false, configured := false,
    skValid := false, pkValid := false, basisValid := false, overrun := false, busErr := false,
    errcode := .none, lastOp := 0 }

/-- SK_STORE, the private key f, g, F, G (R26). A coefficient a list does not hold is 0 (log 12). -/
structure SecretKey where
  f : List Int
  g : List Int
  bigF : List Int
  bigG : List Int
  deriving DecidableEq, Repr

/-- SK_STORE with every coefficient 0 (R26). -/
def SecretKey.zero : SecretKey := { f := [], g := [], bigF := [], bigG := [] }

/-- BASIS or TBASIS: the triple (B, B_gs, INV_NORM) (R29, R30). An entry a list does not hold is 0 (log 12). -/
structure Basis where
  rows : List (List Int)
  gs : List (List Rat)
  invNorm : List Rat
  deriving DecidableEq, Repr

/-- A basis store that is all zero (R29, R30). -/
def Basis.zero : Basis := { rows := [], gs := [], invNorm := [] }

/-- A candidate of the short-basis generator: CAND(f, g, F, G, h) (R11). -/
structure Candidate where
  key : SecretKey
  h : List Int
  deriving DecidableEq, Repr

/-- An answer of the short-basis generator (GEN_DRAW, R11). -/
inductive GenDraw where
  | retry
  | cand (c : Candidate)
  deriving DecidableEq, Repr

/-- An answer of the Gaussian sampler (SAMPLE_DRAW, R11). Where the request asks for one vector, s2 is not read. -/
inductive SampleDraw where
  | fail
  | ok (s1 s2 : List Int)
  deriving DecidableEq, Repr

/-- SCRATCH: its words in order, each as its bit pattern, a number below 2^SCRATCH_W (R31; log 13). -/
abbrev Scratch := List Nat

/-- SCRATCH with every one of its 7·N_MAX words 0 (R31). -/
def Scratch.zero (b : Build) : Scratch := List.replicate (7 * b.nMax) 0

/-- The vectors a command keeps in SCRATCH (R31), N_MAX words each. KEYGEN's candidate takes the place of what the other
commands keep (log 13). -/
inductive Slot where
  /-- the target of a sample: of the message, or KEYGEN's -/
  | target
  /-- a sample's first vector, or a decoded signature's -/
  | s1
  /-- a sample's second vector, or a decoded signature's -/
  | s2
  /-- VERIFY_REC's reconstructed target -/
  | t
  /-- the recovered message bits, W to a word -/
  | m1
  /-- the recovered tag -/
  | t2
  /-- KEYGEN's candidate: f, g, F, G, h -/
  | f
  | g
  | bigF
  | bigG
  | h
  deriving DecidableEq, Repr

/-- What the external collaborators do between two steps (R48): an answer of the generator and of the sampler, if it
arrives, and the FSM states whose call of a deterministic collaborator gets no answer (log 4). -/
structure Replies where
  gen : Option GenDraw
  samp : Option SampleDraw
  silent : List Fsm
  deriving DecidableEq, Repr, Inhabited

end Sys2Proof.Machine

/-- The collaborators' behaviour at each turn: a free input (R11, R48), so it has no body (log 4). -/
opaque Sys2Proof.Config.replies : Nat → Sys2Proof.Machine.Replies

namespace Sys2Proof.Machine

/-- The registers a host read shows while a command runs, as they were at its CMD write (R36, R137; log 2). -/
structure Shown where
  cfg0 : Word
  cfg1 : Word
  msgLen : Word
  sigLen : Word
  pkLen : Word
  skLen : Word
  verifiedCnt : Word
  unverifiedCnt : Word
  acfg : Acfg
  configured : Bool
  skValid : Bool
  pkValid : Bool
  basisValid : Bool
  deriving DecidableEq, Repr

/-- Nothing is held back while no command runs. -/
def Shown.zero : Shown :=
  { cfg0 := 0, cfg1 := 0, msgLen := 0, sigLen := 0, pkLen := 0, skLen := 0, verifiedCnt := 0, unverifiedCnt := 0,
    acfg := Acfg.zero, configured := false, skValid := false, pkValid := false, basisValid := false }

/-- What arrives at the host port or the reset input (R37, R140). `rst` is one event with no duration: nothing arrives
while it is held asserted (log 29). -/
inductive HostEvent where
  /-- a 32-bit write with byte enables -/
  | write (a : BusAddr) (d : Word) (be : ByteEnables)
  /-- a 32-bit read -/
  | read (a : BusAddr)
  /-- assertion of `rst` -/
  | rst
  deriving DecidableEq, Repr

/-- An event still to come and when it lands: after the running command has ended (`none`), or after so many more
FSM transitions of it (`some k`). While no command runs it lands at once (R44; log 3). -/
structure Arrival where
  during : Option Nat
  event : HostEvent
  deriving DecidableEq, Repr

/-- The window bytes, by bus address. A byte that is not listed is 0 (R32, R139; log 14). -/
abbrev Mem := List Host.Cell

/-- The canonical form of the window bytes: addresses strictly rise and no listed byte is 0. -/
abbrev Mem.wf (m : Mem) : Prop :=
  List.Pairwise (fun x y : Host.Cell => x.1 < y.1) m ∧ ∀ c ∈ m, c.2 ≠ 0

/-- The whole state. `build` is fixed for the instance (R6, R8; log 8); `genPort`, `sampPort`, `silent`, `turn`, `inbox`,
`rdata` and `shown` are the model's own (log 2, 3, 4). -/
structure State where
  build : Build
  cfg0 : Word
  cfg1 : Word
  curCmd : Word
  status : Status
  ie : Bool
  msgLen : Word
  sigLen : Word
  pkLen : Word
  skLen : Word
  kgAttempts : Word
  verifiedCnt : Word
  unverifiedCnt : Word
  acfg : Acfg
  sk : SecretKey
  pk : List Int
  pkNtt : List Int
  basis : Basis
  tbasis : Basis
  scratch : Scratch
  mem : Mem
  st : Fsm
  genPort : List GenDraw
  sampPort : List SampleDraw
  silent : List Fsm
  turn : Nat
  inbox : List Arrival
  rdata : Word
  shown : Shown
  deriving DecidableEq, Repr

/-- The reset state of an instance with build `b`, item by item as R139 lists it. -/
def State.powerOn (b : Build) : State :=
  { build := b, cfg0 := 0, cfg1 := 0, curCmd := 0, status := Status.zero, ie := false,
    msgLen := 0, sigLen := 0, pkLen := 0, skLen := 0, kgAttempts := 0, verifiedCnt := 0, unverifiedCnt := 0,
    acfg := Acfg.zero, sk := SecretKey.zero, pk := [], pkNtt := [], basis := Basis.zero, tbasis := Basis.zero,
    scratch := Scratch.zero b, mem := [], st := .unconfigured, genPort := [], sampPort := [], silent := [], turn := 0,
    inbox := [], rdata := 0, shown := Shown.zero }

/-- The machine right after reset (R139). -/
def State.reset : State := State.powerOn Config.build

/-- PS_active, the parameter set CONFIGURE selected (R25, R83). -/
def State.ps (s : State) : ParamSet := s.build.pset s.acfg.variant s.acfg.pset

/-- Why a step can stop the machine. The block itself never stops (60_exceptions.md R120, R124). -/
inductive Fault where
  /-- BUSY and `st` do not fit the command word: no command runs, or `st` is not on its path. Raised by every meaning
  and by the step. R34 and R55 exclude these states and no run from reset reaches one, so the stop is safe. -/
  | offPath
  deriving DecidableEq, Repr

/-- Why the model can refuse an instruction. -/
inductive Refusal where
  /-- An instruction without a meaning yet; only arms of `exec` raise it. Safe. No arm raises it now. -/
  | notModelled (mnemonic : String)
  deriving DecidableEq, Repr

end Sys2Proof.Machine
end

