-- ==== Sys2Proof/Machine/Flags.lean ====
section
/-! DEFINITION. The codes and bits of STATUS and CTRL, and the interrupt output (10_state.md R19, R20, R33; 30_encoding.md
R55; 60_exceptions.md R120, R131). The block has no condition codes (R33). -/

namespace Sys2Proof.Machine

/-- STATUS.FSM_STATE of a state (R55). -/
def fsmCode : Fsm → BitVec 8
  | .unconfigured => 0x00
  | .ready => 0x01
  | .dispatch => 0x02
  | .finish => 0x03
  | .cfValidate => 0x08
  | .cfTeardown => 0x09
  | .kgGenerate => 0x10
  | .kgBasis => 0x11
  | .kgSample => 0x12
  | .kgTest => 0x13
  | .kgCommit => 0x14
  | .kyDecode => 0x18
  | .kyBasis => 0x19
  | .kyEncode => 0x1A
  | .sgOracle => 0x20
  | .sgBasis => 0x21
  | .sgSample => 0x22
  | .sgEncode => 0x23
  | .sgCompact => 0x24
  | .vfDecode => 0x30
  | .vfOracle => 0x31
  | .vfNorm => 0x32
  | .vfRecon => 0x33
  | .vfRecover => 0x34
  | .vfMerge => 0x35
  | .vfTag => 0x36

/-- STATUS.ERRCODE of an outcome (R120); 8 to 15 are never produced. -/
def errBits : ErrCode → BitVec 4
  | .none => 0
  | .nullPointer => 1
  | .outOfBounds => 2
  | .disabledAtCompileTime => 3
  | .samplingFailure => 4
  | .verificationRejected => 5
  | .functionFailure => 6
  | .illegalCommand => 7

/-- The STATUS register as the host reads it, bit 31 first (R19). -/
def statusWord (s : State) : Word :=
  s.status.lastOp ++ fsmCode s.st ++ errBits s.status.errcode ++ (0 : BitVec 1)
    ++ BitVec.ofBool s.status.busErr ++ BitVec.ofBool s.status.overrun ++ BitVec.ofBool s.status.basisValid
    ++ BitVec.ofBool s.status.pkValid ++ BitVec.ofBool s.status.skValid ++ BitVec.ofBool s.status.configured
    ++ BitVec.ofBool s.status.reject ++ BitVec.ofBool s.status.accept ++ BitVec.ofBool s.status.err
    ++ BitVec.ofBool s.status.done ++ BitVec.ofBool s.status.busy

/-- The CTRL register as the host reads it: IE in bit 0, the rest 0 (R20). -/
def ctrlWord (s : State) : Word := (0 : BitVec 31) ++ BitVec.ofBool s.ie

/-- The CAPS register (R16). -/
def capsWord (b : Build) : Word :=
  (0 : BitVec 27) ++ BitVec.ofBool b.hwntt ++ BitVec.ofBool b.huffman ++ BitVec.ofBool b.verify
    ++ BitVec.ofBool b.sign ++ BitVec.ofBool b.keygen

/-- The ID register's constant (R15). -/
def idWord : Word := 0x47505601

/-- A STATUS write with the enabled data bits `d`: bits 1, 9 and 10 clear what they name, every other bit is ignored (R19). -/
def statusWrite (d : Word) (f : Status) : Status :=
  { f with
    done := f.done && !d.getLsbD 1
    overrun := f.overrun && !d.getLsbD 9
    busErr := f.busErr && !d.getLsbD 10 }

/-- The level-sensitive interrupt output (R131). -/
def irq (s : State) : Bool := s.status.done && s.ie

/-- The state the block idles in (R34, R124). -/
def idleState (f : Status) : Fsm := if f.configured then .ready else .unconfigured

end Sys2Proof.Machine
end

