-- ==== Sys2Proof/Machine/Ops.lean ====
section
/-! DEFINITION. The named operations over memory and registers: window bytes (20_memory.md R39, 00_scope.md R13), byte
enables (R37), the start of a command (10_state.md R18), and the end of one, which is this block's trap entry
(60_exceptions.md R124 - R130). -/

namespace Sys2Proof.Machine

/-! ### Window bytes -/

/-- One byte at a bus address; an unlisted byte is 0 (R32, R139). -/
def readByte (m : Mem) (a : Nat) : Byte :=
  match m with
  | [] => 0
  | c :: r => if c.1 = a then c.2 else readByte r a

/-- The byte at `a` becomes `b`; the list keeps its canonical form. -/
def writeByte (m : Mem) (a : Nat) (b : Byte) : Mem :=
  match m with
  | [] => if b = 0 then [] else [(a, b)]
  | c :: r =>
    if a < c.1 then (if b = 0 then c :: r else (a, b) :: c :: r)
    else if a = c.1 then (if b = 0 then r else (a, b) :: r)
    else c :: writeByte r a b

/-- The `n` bytes from `a` on. -/
def readBytes (m : Mem) (a n : Nat) : List Byte := (List.range n).map fun i => readByte m (a + i)

/-- The bytes `bs` from `a` on. -/
def writeBytes (m : Mem) (a : Nat) (bs : List Byte) : Mem :=
  match bs with
  | [] => m
  | b :: r => writeBytes (writeByte m a b) (a + 1) r

/-- Every byte at an address in [lo, hi) becomes 0. -/
def clearBytes (m : Mem) (lo hi : Nat) : Mem := m.filter fun c => decide (c.1 < lo) || decide (hi ≤ c.1)

/-- The four buffer windows (R32). -/
inductive Window where
  | msg
  | sig
  | pk
  | sk
  deriving DecidableEq, Repr

/-- The bus address of a window's first byte (R38). -/
def windowBase : Window → Nat
  | .msg => 0x10000
  | .sig => 0x20000
  | .pk => 0x30000
  | .sk => 0x40000

/-- A window's capacity in bytes (R39). -/
def windowCap (b : Build) : Window → Nat
  | .msg => b.msgCap
  | .sig => b.sigCap
  | .pk => b.pkCap
  | .sk => b.skCap

/-- A window's length register (R21). -/
def windowLen (s : State) : Window → Word
  | .msg => s.msgLen
  | .sig => s.sigLen
  | .pk => s.pkLen
  | .sk => s.skLen

/-- `v` into a window's length register (R21). -/
def setWindowLen (win : Window) (v : Word) (s : State) : State :=
  match win with
  | .msg => { s with msgLen := v }
  | .sig => { s with sigLen := v }
  | .pk => { s with pkLen := v }
  | .sk => { s with skLen := v }

/-- MemRead(win, 0, n) (R13, R39). -/
def windowRead (s : State) (win : Window) (n : Nat) : List Byte := readBytes s.mem (windowBase win) n

/-- What every command that writes a window does with it: MemWrite(win, 0, L, bytes), the bytes [L, CAP) become 0, and
the length register becomes L (R147). -/
def windowStore (win : Window) (bytes : List Byte) (s : State) : State :=
  setWindowLen win (BitVec.ofNat 32 bytes.length)
    { s with
      mem := clearBytes (writeBytes s.mem (windowBase win) bytes) (windowBase win + bytes.length)
        (windowBase win + windowCap s.build win) }

/-- Every byte of the window becomes 0, and its length register too. -/
def windowZero (win : Window) (s : State) : State := windowStore win [] s

/-! ### Byte enables -/

/-- The data bits a set of byte enables lets through: lane i is data bits [8i+7:8i] (R37). -/
def laneMask (be : ByteEnables) : Word :=
  let lane (i : Nat) : Byte := if be.getLsbD i then 0xFF else 0
  lane 3 ++ lane 2 ++ lane 1 ++ lane 0

/-- A register after a write of `d` with byte enables `be` (R37). -/
def mergeLanes (old d : Word) (be : ByteEnables) : Word := (old &&& ~~~laneMask be) ||| (d &&& laneMask be)

/-! ### The start of a command -/

/-- The registers as they stand now, to be shown while a command runs (R36). -/
def Shown.ofState (s : State) : Shown :=
  { cfg0 := s.cfg0, cfg1 := s.cfg1, msgLen := s.msgLen, sigLen := s.sigLen, pkLen := s.pkLen, skLen := s.skLen,
    verifiedCnt := s.verifiedCnt, unverifiedCnt := s.unverifiedCnt, acfg := s.acfg,
    configured := s.status.configured, skValid := s.status.skValid, pkValid := s.status.pkValid,
    basisValid := s.status.basisValid }

/-- A CMD write of `w` taken while BUSY = 0 (R18). -/
def startCommand (w : Word) (s : State) : State :=
  { s with
    curCmd := w
    st := .dispatch
    shown := Shown.ofState s
    status := { s.status with
      busy := true, done := false, err := false, accept := false, reject := false, errcode := .none,
      lastOp := w.extractLsb' 0 8 } }

/-! ### The end of a command -/

/-- `finish_ok` up to the ending sequence (R125). -/
def finishOk (s : State) : State := { s with st := .finish }

/-- `raise Error(code)` up to the ending sequence: the cause is recorded in STATUS (R126, R129). -/
def raiseError (e : ErrCode) (s : State) : State :=
  { s with status := { s.status with err := true, errcode := e }, st := .finish }

/-- `accept` up to the ending sequence (R127, R116). -/
def accept (s : State) : State :=
  { s with status := { s.status with accept := true }, verifiedCnt := s.verifiedCnt + 1, st := .finish }

/-- `reject` up to the ending sequence, as both verify commands do it (R128, R116). -/
def reject (s : State) : State :=
  { s with
    status := { s.status with reject := true, errcode := .verificationRejected }
    unverifiedCnt := s.unverifiedCnt + 1
    st := .finish }

/-- The sequence every command ends with, run in state FINISH (R124). -/
def endCommand (s : State) : State :=
  { s with
    scratch := Scratch.zero s.build
    tbasis := Basis.zero
    status := { s.status with busy := false, done := true }
    st := idleState s.status
    shown := Shown.zero }

/-- There is no return instruction: the host acknowledges by writing 1 to STATUS.DONE (R130). -/
def acknowledge (s : State) : State := { s with status := statusWrite 0x00000602 s.status }

/-- What `rst` does at any moment: every item of R139 at its reset value, whatever ran (R140). The answers and accesses
still to come are the environment's and stay (log 23). -/
def resetBlock (s : State) : State :=
  { State.powerOn s.build with
    genPort := s.genPort, sampPort := s.sampPort, silent := s.silent, turn := s.turn, inbox := s.inbox
    rdata := s.rdata }

end Sys2Proof.Machine
end

