-- ==== Sys2Proof/Machine/Bus.lean ====
section
/-! DEFINITION. The host port (20_memory.md R37 - R44): the register file (10_state.md R14 - R24), the four windows, and what
the port does while a command runs (R42). -/

namespace Sys2Proof.Machine

/-- The registers of R14, in the order of their offsets. -/
inductive Reg where
  | id
  | caps
  | cfg0
  | cfg1
  | cmd
  | status
  | ctrl
  | msgLen
  | sigLen
  | pkLen
  | skLen
  | kgAttempts
  | verifiedCnt
  | unverifiedCnt
  | pN
  | pQ
  | pQBits
  | pFgBits
  | pFguBits
  | pK
  | pL1
  | msgCapR
  | sigCapR
  | pkCapR
  | skCapR
  | nMaxR
  deriving DecidableEq, Repr

/-- The registers by offset / 4 (R14). -/
def regTable : List Reg :=
  [.id, .caps, .cfg0, .cfg1, .cmd, .status, .ctrl, .msgLen, .sigLen, .pkLen, .skLen, .kgAttempts, .verifiedCnt,
   .unverifiedCnt, .pN, .pQ, .pQBits, .pFgBits, .pFguBits, .pK, .pL1, .msgCapR, .sigCapR, .pkCapR, .skCapR, .nMaxR]

/-- What an address reaches (R38, R39): a register, a word of a window's buffer, or nothing (reserved, or past the
window's capacity: reads 0, writes ignored). -/
inductive Target where
  | reg (r : Reg)
  | buffer (win : Window) (off : Nat)
  | nothing
  deriving DecidableEq, Repr

/-- The window a bus address lies in, by its 64 KiB page (R38). -/
def windowOfPage : Nat → Option Window
  | 1 => some .msg
  | 2 => some .sig
  | 3 => some .pk
  | 4 => some .sk
  | _ => none

/-- The target of an access; address bits [1:0] are ignored (R37, R38, R39). -/
def busTarget (b : Build) (a : BusAddr) : Target :=
  let word := a.toNat / 4
  if a.toNat < 0x10000 then
    match regTable[word]? with
    | some r => .reg r
    | none => .nothing
  else
    match windowOfPage (a.toNat / 0x10000) with
    | none => .nothing
    | some win =>
      let off := 4 * word - windowBase win
      if off < windowCap b win then .buffer win off else .nothing

/-- A P_* register: the field while CONFIGURED = 1, else 0 (R23). -/
def paramWord (s : State) (f : ParamSet → Nat) : Word :=
  if s.status.configured then BitVec.ofNat 32 (f s.ps) else 0

/-- What a register reads (R14 - R24). -/
def readReg (s : State) : Reg → Word
  | .id => idWord
  | .caps => capsWord s.build
  | .cfg0 => s.cfg0
  | .cfg1 => s.cfg1
  | .cmd => 0
  | .status => statusWord s
  | .ctrl => ctrlWord s
  | .msgLen => s.msgLen
  | .sigLen => s.sigLen
  | .pkLen => s.pkLen
  | .skLen => s.skLen
  | .kgAttempts => s.kgAttempts
  | .verifiedCnt => s.verifiedCnt
  | .unverifiedCnt => s.unverifiedCnt
  | .pN => paramWord s ParamSet.n
  | .pQ => paramWord s ParamSet.q
  | .pQBits => paramWord s ParamSet.qBits
  | .pFgBits => paramWord s ParamSet.fgBits
  | .pFguBits => paramWord s ParamSet.fguBits
  | .pK => paramWord s ParamSet.k
  | .pL1 => paramWord s fun ps => ps.l1 s.acfg.variant
  | .msgCapR => BitVec.ofNat 32 s.build.msgCap
  | .sigCapR => BitVec.ofNat 32 s.build.sigCap
  | .pkCapR => BitVec.ofNat 32 s.build.pkCap
  | .skCapR => BitVec.ofNat 32 s.build.skCap
  | .nMaxR => BitVec.ofNat 32 s.build.nMax

/-- The registers as a host read shows them. While a command runs they are those of its CMD write, but for FSM_STATE,
KG_ATTEMPTS and the bits the host's own accesses change (R36, R137), and BASIS_VALID, which KEYGEN holds at 0 until its
commit (R99, C9; log 2). -/
def hostView (s : State) : State :=
  if s.status.busy then
    { s with
      cfg0 := s.shown.cfg0, cfg1 := s.shown.cfg1, msgLen := s.shown.msgLen, sigLen := s.shown.sigLen
      pkLen := s.shown.pkLen, skLen := s.shown.skLen, verifiedCnt := s.shown.verifiedCnt
      unverifiedCnt := s.shown.unverifiedCnt, acfg := s.shown.acfg
      status := { s.status with
        err := false, accept := false, reject := false, errcode := .none, configured := s.shown.configured
        skValid := s.shown.skValid, pkValid := s.shown.pkValid
        basisValid := if s.curCmd = encode .keygen then s.status.basisValid else s.shown.basisValid } }
  else s

/-- The word at a window offset, little-endian (R40). -/
def readBufferWord (m : Mem) (a : Nat) : Word :=
  readByte m (a + 3) ++ readByte m (a + 2) ++ readByte m (a + 1) ++ readByte m a

/-- One enabled byte lane of a window write (R37, R40). -/
def writeLane (a : Nat) (d : Word) (be : ByteEnables) (i : Nat) (m : Mem) : Mem :=
  if be.getLsbD i then writeByte m (a + i) (d.extractLsb' (8 * i) 8) else m

/-- The enabled byte lanes of a window write, little-endian (R37, R40). -/
def writeBufferWord (a : Nat) (d : Word) (be : ByteEnables) (m : Mem) : Mem :=
  writeLane a d be 3 (writeLane a d be 2 (writeLane a d be 1 (writeLane a d be 0 m)))

/-- An access the interlock drops: STATUS.BUSERR becomes 1 (R42). -/
def busError (s : State) : State := { s with status := { s.status with busErr := true } }

/-- A write that takes effect only while BUSY = 0, and is dropped with BUSERR otherwise (R42 a). -/
def unlessBusy (s s' : State) : State := if s.status.busy then busError s else s'

/-- A register write (R15 - R24, R42). Read-only registers ignore it. A CFG0 or CFG1 write with both BUSY = 1 and
CONFIGURED = 1 sets BUSERR: R42 is taken before R148 (log 30). -/
def writeReg (r : Reg) (d : Word) (be : ByteEnables) (s : State) : State :=
  match r with
  | .cfg0 => unlessBusy s (if s.status.configured then s else { s with cfg0 := mergeLanes s.cfg0 d be })
  | .cfg1 => unlessBusy s (if s.status.configured then s else { s with cfg1 := mergeLanes s.cfg1 d be })
  | .cmd => if s.status.busy then { s with status := { s.status with overrun := true } } else startCommand d s
  | .status => { s with status := statusWrite (d &&& laneMask be) s.status }
  | .ctrl => unlessBusy s { s with ie := (mergeLanes (ctrlWord s) d be).getLsbD 0 }
  | .msgLen => unlessBusy s { s with msgLen := mergeLanes s.msgLen d be }
  | .sigLen => unlessBusy s { s with sigLen := mergeLanes s.sigLen d be }
  | .pkLen => unlessBusy s { s with pkLen := mergeLanes s.pkLen d be }
  | .skLen => unlessBusy s { s with skLen := mergeLanes s.skLen d be }
  | .id | .caps | .kgAttempts | .verifiedCnt | .unverifiedCnt | .pN | .pQ | .pQBits | .pFgBits | .pFguBits | .pK
  | .pL1 | .msgCapR | .sigCapR | .pkCapR | .skCapR | .nMaxR => s

/-- A bus write (R37 - R42). -/
def busWrite (a : BusAddr) (d : Word) (be : ByteEnables) (s : State) : State :=
  match busTarget s.build a with
  | .reg r => writeReg r d be s
  | .buffer win off => unlessBusy s { s with mem := writeBufferWord (windowBase win + off) d be s.mem }
  | .nothing => s

/-- The word a bus read returns (R37 - R42). -/
def busReadData (a : BusAddr) (s : State) : Word :=
  match busTarget s.build a with
  | .reg r => readReg (hostView s) r
  | .buffer win off => if s.status.busy then 0 else readBufferWord s.mem (windowBase win + off)
  | .nothing => 0

/-- The one side effect a read has: BUSERR on a window read while BUSY = 1 (R41, R42 b). -/
def busReadEffect (a : BusAddr) (s : State) : State :=
  match busTarget s.build a with
  | .buffer _ _ => unlessBusy s s
  | .reg _ | .nothing => s

/-- A bus read: the word goes to the host, which `rdata` stands for (log 3). -/
def busRead (a : BusAddr) (s : State) : State := { busReadEffect a s with rdata := busReadData a s }

/-- One event at the host port or the reset input (R44, R140). -/
def hostEvent (e : HostEvent) (s : State) : State :=
  match e with
  | .write a d be => busWrite a d be s
  | .read a => busRead a s
  | .rst => resetBlock s

end Sys2Proof.Machine
end

