-- ==== Sys2Proof/Machine/Bits.lean ====
section
/-! DEFINITION. Bit streams and fields (40_helpers.md R69 - R71). -/

namespace Sys2Proof.Machine

/-- pos(j): the bit of its byte that stream bit j takes. It is its own inverse on 0..7 (R69). -/
def bitPos (o : BitOrder) (j : Nat) : Nat :=
  match o with
  | .msbFirst => 7 - j % 8
  | .lsbFirst => j % 8

/-- ceil(L/8) (R69). -/
def byteCount (bits : Nat) : Nat := (bits + 7) / 8

/-- The byte whose bit p is `f p`. -/
def byteOf (f : Nat → Bool) : Byte :=
  BitVec.ofBool (f 7) ++ BitVec.ofBool (f 6) ++ BitVec.ofBool (f 5) ++ BitVec.ofBool (f 4)
    ++ BitVec.ofBool (f 3) ++ BitVec.ofBool (f 2) ++ BitVec.ofBool (f 1) ++ BitVec.ofBool (f 0)

/-- ToBytes(b): stream bit j into byte j/8 at bit pos(j), pad bits 0 (R69). -/
def toBytes (o : BitOrder) (b : List Bool) : List Byte :=
  (List.range (byteCount b.length)).map fun i => byteOf fun p => b.getD (8 * i + bitPos o p) false

/-- Bits(bytes, M): stream bit j is bit pos(j) of byte j/8 (R69). -/
def bitsOf (o : BitOrder) (bytes : List Byte) : List Bool :=
  bytes.flatMap fun y => (List.range 8).map fun j => y.getLsbD (bitPos o j)

/-- The bits a field of width `w` with pattern `u` is emitted as (R70); a width above 32, which R70 does not name, by the
same formula (log 28). -/
def fieldBits (o : BitOrder) (w u : Nat) : List Bool :=
  match o with
  | .msbFirst => (List.range w).map fun j => u.testBit (w - 1 - j)
  | .lsbFirst => (List.range w).map fun j => u.testBit j

/-- The pattern whose emission is `b` (R70). -/
def fieldValue (o : BitOrder) (b : List Bool) : Nat :=
  match o with
  | .msbFirst => b.foldl (fun acc x => 2 * acc + x.toNat) 0
  | .lsbFirst => b.foldr (fun x acc => 2 * acc + x.toNat) 0

/-- The pattern of the field of width `w` at stream position `p`; a position past the stream reads 0 (R70, R76). -/
def readField (o : BitOrder) (w : Nat) (b : List Bool) (p : Nat) : Nat :=
  fieldValue o ((List.range w).map fun j => b.getD (p + j) false)

/-- The pattern v mod 2^w of a signed or unsigned value (R71). -/
def patternOf (w : Nat) (v : Int) : Nat := (v % 2 ^ w).toNat

/-- sext_w of a pattern below 2^w (R12, R71). -/
def signExtend (w u : Nat) : Int := if 2 * u < 2 ^ w then (u : Int) else (u : Int) - 2 ^ w

/-- The value a pattern stands for in a signed or unsigned field (R71). -/
def valueOf (signed : Bool) (w u : Nat) : Int := if signed then signExtend w u else (u : Int)

end Sys2Proof.Machine
end

