-- ==== Sys2Proof/Machine/Ring.lean ====
section
/-! DEFINITION. Ring arithmetic and the norm on integer vectors (40_helpers.md R61 - R68). -/

namespace Sys2Proof.Machine

/-- Coefficient i of a stored vector; one the list does not hold is 0 (log 12). -/
def coef (v : List Int) (i : Nat) : Int := v.getD i 0

/-- The vector of length `n` with the given coefficients. -/
def vec (n : Nat) (f : Nat → Int) : List Int := (List.range n).map f

/-- The sum of f over 0 .. n-1. -/
def sumTo (n : Nat) (f : Nat → Int) : Int := ((List.range n).map f).sum

/-- normalize(x) (R61). -/
def normalize (ps : ParamSet) (x : List Int) : List Int := vec ps.n fun i => coef x i % ps.q

/-- The centred representative of one integer (R62). -/
def centerInt (q : Nat) (x : Int) : Int := if x % q > (q / 2 : Nat) then x % q - q else x % q

/-- center(x) (R62). -/
def center (ps : ParamSet) (x : List Int) : List Int := vec ps.n fun i => centerInt ps.q (coef x i)

/-- Coefficient-wise addition, without reduction (R65). -/
def vecAdd (n : Nat) (a b : List Int) : List Int := vec n fun i => coef a i + coef b i

/-- Coefficient-wise subtraction, without reduction (R65). -/
def vecSub (n : Nat) (a b : List Int) : List Int := vec n fun i => coef a i - coef b i

/-- Coefficient i of the product modulo x^n + 1, before reduction mod Q: the loop of R64. -/
def negacyclicCoef (n : Nat) (a b : List Int) (i : Nat) : Int :=
  sumTo n fun j => if j ≤ i then coef a j * coef b (i - j) else -(coef a j * coef b (i + n - j))

/-- The product of two vectors of length n as polynomials: 2n-1 coefficients. -/
def polyProduct (n : Nat) (a b : List Int) : List Int :=
  vec (2 * n - 1) fun k => sumTo n fun j => if j ≤ k ∧ k - j < n then coef a j * coef b (k - j) else 0

/-- The remainder of a polynomial with n+t coefficients modulo x^n + low: the top coefficient is eliminated t times. -/
def polyReduce (n : Nat) (low : List Int) : Nat → List Int → List Int
  | 0, c => c
  | t + 1, c =>
    polyReduce n low t (vec (n + t) fun i => coef c i - if t ≤ i then coef c (n + t) * coef low (i - t) else 0)

/-- RingMul(a, b): the product modulo RING_POLY and Q (R64). -/
def ringMul (rp : RingPoly) (ps : ParamSet) (a b : List Int) : List Int :=
  match rp with
  | .negacyclic => vec ps.n fun i => negacyclicCoef ps.n a b i % ps.q
  | .monic low => vec ps.n fun i => coef (polyReduce ps.n low (ps.n - 1) (polyProduct ps.n a b)) i % ps.q

/-- x·p in the ring, over the integers: the shift, with the wrapped coefficient times minus the ring polynomial (R86). -/
def mulX (rp : RingPoly) (n : Nat) (p : List Int) : List Int :=
  match rp with
  | .negacyclic => vec n fun i => if i = 0 then -coef p (n - 1) else coef p (i - 1)
  | .monic low => vec n fun i => (if i = 0 then 0 else coef p (i - 1)) - coef p (n - 1) * coef low i

/-- SqNorm(u, v) (R66). -/
def sqNorm (n : Nat) (u v : List Int) : Int :=
  sumTo n (fun i => coef u i * coef u i) + sumTo n (fun i => coef v i * coef v i)

/-- NormOK(u, v): strictly below BD_SQ (R67). -/
def normOk (ps : ParamSet) (u v : List Int) : Bool := decide (sqNorm ps.n u v < ps.bdSq)

/-- CTEQ(a, b): all K coefficients are equal (R68). -/
def cteq (k : Nat) (a b : List Int) : Bool := (List.range k).all fun i => decide (coef a i = coef b i)

end Sys2Proof.Machine
end

