-- ==== Sys2Proof/Machine/Operands.lean ====
section
/-! DEFINITION. The implicit operands of the commands (30_encoding.md R49): packed elements in the windows (40_helpers.md
R72, R73), the message and its targets (R74 - R78), the message-recovery bit-packing (R76, R77, R80, R81), and the words
of SCRATCH (10_state.md R31). -/

namespace Sys2Proof.Machine

/-! ### Packed elements -/

/-- An element descriptor (coding, kind, w, sgn) (R73). -/
structure ElemDesc where
  coding : Coding
  kind : HuffKind
  w : Nat
  signed : Bool
  deriving DecidableEq, Repr

/-- EncodeElem: the bit string of one ring element (R72). -/
def encodeElem (C : Collab) (o : BitOrder) (n : Nat) (e : ElemDesc) (v : List Int) : List Bool :=
  match e.coding with
  | .none => (List.range n).flatMap fun i => fieldBits o e.w (patternOf e.w (coef v i))
  | .huffman => C.huffEnc e.kind v e.w

/-- Pack(parts): the bytes of the concatenated bit strings; their number is the length L (R72). -/
def pack (o : BitOrder) (parts : List (List Bool)) : List Byte := toBytes o parts.flatten

/-- One element from stream position `p`, and the position after it, or FAIL (R73). A Huffman answer is read as `n`
values of width w (log 17). -/
def decodeElem (C : Collab) (o : BitOrder) (n : Nat) (b : List Bool) (e : ElemDesc) (p : Nat) :
    Option (List Int × Nat) :=
  match e.coding with
  | .none =>
    if p + n * e.w > b.length then none
    else some (vec n fun i => valueOf e.signed e.w (readField o e.w b (p + i * e.w)), p + n * e.w)
  | .huffman =>
    match C.huffDec e.kind b p n e.w with
    | none => none
    | some (f, p') => some (vec n fun i => valueOf e.signed e.w (patternOf e.w (f i)), p')

/-- The elements of a schema in order, and the position after the last (R73). -/
def decodeElems (C : Collab) (o : BitOrder) (n : Nat) (b : List Bool) (schema : List ElemDesc) (p : Nat) :
    Option (List (List Int) × Nat) :=
  match schema with
  | [] => some ([], p)
  | e :: r =>
    match decodeElem C o n b e p with
    | none => none
    | some (v, p') =>
      match decodeElems C o n b r p' with
      | none => none
      | some (vs, p'') => some (v :: vs, p'')

/-- Unpack of a byte string: strict about its length and its pad bits (R73). -/
def unpack (C : Collab) (o : BitOrder) (n : Nat) (bytes : List Byte) (schema : List ElemDesc) :
    Option (List (List Int)) :=
  match decodeElems C o n (bitsOf o bytes) schema 0 with
  | none => none
  | some (vs, p) =>
    if byteCount p = bytes.length ∧ ((bitsOf o bytes).drop p).all (fun x => !x) then some vs else none

/-- The private-key schema: f, g coded as SK_CODING says, F and G uncoded (R59, R105). -/
def skSchema (ps : ParamSet) (a : Acfg) : List ElemDesc :=
  [{ coding := a.skCoding, kind := .skFg, w := ps.fgBits, signed := true },
   { coding := a.skCoding, kind := .skFg, w := ps.fgBits, signed := true },
   { coding := .none, kind := .skFg, w := ps.fguBits, signed := true },
   { coding := .none, kind := .skFg, w := ps.fguBits, signed := true }]

/-- The public-key element: always uncoded, unsigned Q_BITS fields (R58, R106). -/
def pkElem (ps : ParamSet) : ElemDesc := { coding := .none, kind := .skFg, w := ps.qBits, signed := false }

/-- One signature element: signed Q_BITS fields, coded as SIG_CODING says (R56, R57). -/
def sigElem (ps : ParamSet) (a : Acfg) : ElemDesc :=
  { coding := a.sigCoding, kind := .sig, w := ps.qBits, signed := true }

/-- The private key's wire form (R59, R107). -/
def packSk (C : Collab) (s : State) : List Byte :=
  pack s.build.bitOrder
    (List.zipWith (encodeElem C s.build.bitOrder s.ps.n) (skSchema s.ps s.acfg)
      [s.sk.f, s.sk.g, s.sk.bigF, s.sk.bigG])

/-- The public key's wire form (R58, R108). -/
def packPk (C : Collab) (s : State) : List Byte :=
  pack s.build.bitOrder [encodeElem C s.build.bitOrder s.ps.n (pkElem s.ps) s.pk]

/-- A signature's wire form: one element in the plain variant, two in the recovery variant (R56, R57). -/
def packSig (C : Collab) (s : State) (vs : List (List Int)) : List Byte :=
  pack s.build.bitOrder (vs.map (encodeElem C s.build.bitOrder s.ps.n (sigElem s.ps s.acfg)))

/-- Unpack(win, LEN, schema) with LEN the window's length register (R73). -/
def unpackWindow (C : Collab) (s : State) (win : Window) (schema : List ElemDesc) : Option (List (List Int)) :=
  unpack C s.build.bitOrder s.ps.n (windowRead s win (windowLen s win).toNat) schema

/-- Every decoded public-key coefficient is below Q (R106). -/
def pkInRange (ps : ParamSet) (h : List Int) : Bool := h.all fun x => decide (x < ps.q)

/-- The public key of the PK window where it passes both checks of LOAD_PK: it decodes, and no coefficient is Q or more
(R106). -/
def decodedPk (C : Collab) (s : State) : Option (List Int) :=
  match unpackWindow C s .pk [pkElem s.ps] with
  | some [h] => if pkInRange s.ps h then some h else none
  | _ => none

/-! ### Message and targets -/

/-- msg = MemRead(MSG, 0, MSG_LEN) (R74). -/
def message (s : State) : List Byte := windowRead s .msg s.msgLen.toNat

/-- RO_MAP(oc, msg), in [0, Q)^N (R10, R75; D54). -/
def roMap (C : Collab) (ps : ParamSet) (oc : Oracle) (msg : List Byte) : List Int :=
  vec ps.n fun i => ((C.roMap ps oc msg i % ps.q : Nat) : Int)

/-- RO_TAG(oc, msg), in [0, Q)^K (R10; D54). -/
def roTag (C : Collab) (ps : ParamSet) (oc : Oracle) (msg : List Byte) : List Int :=
  vec ps.k fun i => ((C.roTag ps oc msg i % ps.q : Nat) : Int)

/-- MIX(oc, t2), in [0, 2^W)^(N-K) (R10; D54). -/
def mixTag (C : Collab) (ps : ParamSet) (oc : Oracle) (t2 : List Int) : List Int :=
  vec (ps.n - ps.k) fun i => ((C.mix ps oc t2 i % 2 ^ ps.w : Nat) : Int)

/-! ### Message recovery -/

/-- A1 = floor(L1/8) of a recovery set (R7). -/
def a1Of (ps : ParamSet) : Nat := ps.l1 .recovery / 8

/-- M1(msg, M): N-K unsigned W-bit fields from stream bit 0 on, zero bits past the message (R76). -/
def m1Of (o : BitOrder) (ps : ParamSet) (msg : List Byte) : List Int :=
  vec (ps.n - ps.k) fun i => (readField o ps.w (bitsOf o msg) (i * ps.w) : Int)

/-- Compact(msg, M): the bits beyond m1 as bytes; empty when 8M <= L1 (R77). -/
def compact (o : BitOrder) (ps : ParamSet) (msg : List Byte) : List Byte :=
  if 8 * msg.length ≤ ps.l1 .recovery then [] else toBytes o ((bitsOf o msg).drop (ps.l1 .recovery))

/-- RecTarget(msg, M) (R78). -/
def recTarget (C : Collab) (o : BitOrder) (ps : ParamSet) (oc : Oracle) (msg : List Byte) : List Int :=
  let t2 := roTag C ps oc msg
  let fm := mixTag C ps oc t2
  let m1 := m1Of o ps msg
  vec ps.n fun i => if i < ps.n - ps.k then (coef m1 i + coef fm i) % ps.q else coef t2 (i - (ps.n - ps.k))

/-- The tag part t2 = t[N-K .. N) of a reconstructed target (R80). -/
def recoverTag (ps : ParamSet) (t : List Int) : List Int := vec ps.k fun j => coef t (ps.n - ps.k + j)

/-- The m1 part of Recover(t) (R80). -/
def recoverM1 (C : Collab) (ps : ParamSet) (oc : Oracle) (t : List Int) : List Int :=
  let fm := mixTag C ps oc (recoverTag ps t)
  vec (ps.n - ps.k) fun i => (coef t i - coef fm i) % ps.q

/-- The ok part of Recover(t): every recovered coefficient is below 2^W (R80). -/
def recoverOk (ps : ParamSet) (m1 : List Int) : Bool :=
  (List.range (ps.n - ps.k)).all fun i => decide (coef m1 i < 2 ^ ps.w)

/-- Merge(m1, m2bytes, B2): the first L1 stream bits from m1's fields, the others from m2 (R81). -/
def merge (o : BitOrder) (ps : ParamSet) (m1 : List Int) (m2 : List Byte) : List Byte :=
  let b1 := (List.range (ps.n - ps.k)).flatMap fun i => fieldBits o ps.w (patternOf ps.w (coef m1 i))
  let b2 := bitsOf o m2
  let l1 := ps.l1 .recovery
  toBytes o ((List.range (8 * (a1Of ps + m2.length))).map fun j =>
    if j < l1 then b1.getD j false else b2.getD (j - l1) false)

/-! ### SCRATCH -/

/-- Which of the seven vectors of SCRATCH a slot is (R31). Which word holds which value is the model's choice (log 13). -/
def slotIndex : Slot → Nat
  | .target => 0
  | .s1 => 1
  | .s2 | .f => 2
  | .t | .g => 3
  | .m1 | .bigF => 4
  | .t2 | .bigG => 5
  | .h => 6

/-- The words `x` with the vector `v` put into a slot: each coefficient into one word, as a two's-complement pattern of
SCRATCH_W bits (R31). -/
def putWords (b : Build) (slot : Slot) (v : List Int) (x : Scratch) : Scratch :=
  (List.range (7 * b.nMax)).map fun p =>
    if p / b.nMax = slotIndex slot then patternOf b.scratchW (coef v (p % b.nMax)) else x.getD p 0

/-- The vector `v` into a slot of SCRATCH. -/
def scratchPut (slot : Slot) (v : List Int) (s : State) : State :=
  { s with scratch := putWords s.build slot v s.scratch }

/-- The first `len` coefficients of a slot of the words `x`; a slot has N_MAX words (R31). -/
def slotVec (b : Build) (x : Scratch) (slot : Slot) (len : Nat) : List Int :=
  vec len fun i => if i < b.nMax then signExtend b.scratchW (x.getD (slotIndex slot * b.nMax + i) 0) else 0

/-- The first `len` coefficients of a slot of SCRATCH. -/
def scratchVec (s : State) (slot : Slot) (len : Nat) : List Int := slotVec s.build s.scratch slot len

end Sys2Proof.Machine
end

