-- ==== Sys2Proof/Machine/Basis.lean ====
section
/-! DEFINITION. The basis manager (42_basis.md) and the port to the Gaussian sampler (20_memory.md R48). -/

namespace Sys2Proof.Machine

/-- The rows of A(p): row i is x^i·p in the ring (R86). -/
def ringRows (rp : RingPoly) (n : Nat) : Nat → List Int → List (List Int)
  | 0, _ => []
  | r + 1, p => vec n (coef p) :: ringRows rp n r (mulX rp n p)

/-- Two blocks side by side, the second negated: [A(p) -A(r)]. -/
def blockRow (rp : RingPoly) (n : Nat) (p r : List Int) : List (List Int) :=
  List.zipWith (fun x y => x ++ y.map fun c => -c) (ringRows rp n n p) (ringRows rp n n r)

/-- Expand(f, g, F, G), the 2N x 2N matrix B (R86). -/
def expand (C : Collab) (b : Build) (ps : ParamSet) (k : SecretKey) : List (List Int) :=
  match b.basisLayout with
  | .ntru => blockRow b.ringPoly ps.n k.g k.f ++ blockRow b.ringPoly ps.n k.bigG k.bigF
  | .other id =>
    (List.range (2 * ps.n)).map fun r => vec (2 * ps.n) (C.expandOther id ps [k.f, k.g, k.bigF, k.bigG] r)

/-- INV_NORM: 2N positive rationals, free otherwise (R10, R87; log 10). -/
def invNorms (C : Collab) (ps : ParamSet) (gp : GsoPrec) (rows : List (List Int)) : List Rat :=
  (List.range (2 * ps.n)).map fun i =>
    (((C.gsNorm rows gp i).1 + 1 : Nat) : Rat) / (((C.gsNorm rows gp i).2 + 1 : Nat) : Rat)

/-- BuildBasis(sk): deterministic, at ACFG.GSO_PREC (R87). -/
def buildBasis (C : Collab) (b : Build) (ps : ParamSet) (gp : GsoPrec) (k : SecretKey) : Basis :=
  let rows := expand C b ps k
  { rows := rows
    gs := (List.range (2 * ps.n)).map fun r => (List.range (2 * ps.n)).map fun c => C.gsRows rows gp r c
    invNorm := invNorms C ps gp rows }

/-- BuildBasis of a key under the active configuration. -/
def basisFor (C : Collab) (s : State) (k : SecretKey) : Basis := buildBasis C s.build s.ps s.acfg.gsoPrec k

/-- Where a basis being built is kept: BASIS in cache mode, TBASIS in transient mode (R89). -/
def holdBasis (bas : Basis) (s : State) : State :=
  if s.acfg.keep then { s with basis := bas } else { s with tbasis := bas }

/-- The basis a sampling step uses (R90, R99). -/
def currentBasis (s : State) : Basis := if s.acfg.keep then s.basis else s.tbasis

/-- GetBasis() up to its result, which `currentBasis` then is: nothing to do in cache mode, TBASIS built in transient
mode (R90). -/
def getBasis (C : Collab) (s : State) : State :=
  if s.acfg.keep then s else { s with tbasis := basisFor C s s.sk }

/-- ReleaseBasis() (R91). -/
def releaseBasis (s : State) : State := if s.acfg.keep then s else { s with tbasis := Basis.zero }

/-- The first line of InstallKey: a cached basis is invalid from now on (R92). -/
def invalidateBasis (s : State) : State :=
  { s with basis := Basis.zero, status := { s.status with basisValid := false } }

/-- InstallKey(sk) (R92). -/
def installKey (C : Collab) (s : State) : State :=
  { s with
    basis := if s.acfg.keep then basisFor C s s.sk else Basis.zero
    status := { s.status with basisValid := s.acfg.keep } }

/-- The keygen sampling width 2 / INV_NORM[0] (R99). -/
def keygenSigma (bas : Basis) : Rat := 2 / bas.invNorm.getD 0 0

/-- The reference value of INV_NORM[0], 1 / ||B[0]||^2 (R88). -/
def refInvNorm0 (rows : List (List Int)) : Rat := 1 / (((rows.getD 0 []).map fun x => x * x).sum : Int)

/-- PK_NTT as the build keeps it for a public key `h` (R28, R102, R106). -/
def nttOf (C : Collab) (s : State) (h : List Int) : List Int :=
  if s.build.keepNtt then vec s.ps.n (C.transform s.ps h) else []

/-- A request on the sampler port: the arguments of SAMPLE_DRAW, with the sampler selection of ACFG (R11, R52). -/
structure SampleRequest where
  basis : Basis
  target : List Int
  sigma : Rat
  two : Bool
  prec : Nat
  impl : BitVec 3
  deriving DecidableEq, Repr

/-- The keygen target: every coordinate floor(Q/2) (R100). -/
def keygenTarget (ps : ParamSet) : List Int := vec ps.n fun _ => ((ps.q / 2 : Nat) : Int)

/-- A vector of a sampler answer read through its contract: N coefficients in (-Q, Q), values in that range unchanged
(R11; D56; log 6). -/
def contractSample (ps : ParamSet) (v : List Int) : List Int := vec ps.n fun i => (coef v i).tmod ps.q

/-- What the block asks of the sampler while it waits in KG_SAMPLE or SG_SAMPLE (R48, R100, R109, R110). -/
def samplerRequest (s : State) : Option SampleRequest :=
  match s.st with
  | .kgSample =>
    some { basis := currentBasis s, target := scratchVec s .target s.ps.n, sigma := keygenSigma (currentBasis s),
           two := false, prec := s.acfg.sampPrec, impl := s.acfg.sampImpl }
  | .sgSample =>
    some { basis := currentBasis s, target := scratchVec s .target s.ps.n, sigma := s.ps.signSigma,
           two := decide (s.acfg.variant = .recovery), prec := s.acfg.sampPrec, impl := s.acfg.sampImpl }
  | _ => none

end Sys2Proof.Machine
end

