-- ==== Sys2Proof/Machine/Command.lean ====
section
/-! DEFINITION. How a command runs: the DISPATCH checks (60_exceptions.md R122), the FSM states on its path (30_encoding.md
R55), and the run of its transitions to its end (10_state.md R34 - R36). -/

namespace Sys2Proof.Machine

/-- Check 4: the build profile has the command's family (R122). -/
def familyBuilt (b : Build) : Instr → Bool
  | .keygen => b.keygen
  | .sign | .signRec => b.sign
  | .verify | .verifyRec => b.verify
  | .configure | .destroy | .loadSk | .loadPk | .storeSk | .storePk => true

/-- Check 5: the variant the command needs, where it needs one (R122). -/
def neededVariant : Instr → Option Variant
  | .sign | .verify => some .plain
  | .signRec | .verifyRec => some .recovery
  | .configure | .destroy | .keygen | .loadSk | .loadPk | .storeSk | .storePk => none

/-- Check 6: the key the command needs is there (R122). -/
def keyPresent (f : Status) : Instr → Bool
  | .sign | .signRec | .storeSk => f.skValid
  | .verify | .verifyRec | .storePk => f.pkValid
  | .configure | .destroy | .keygen | .loadSk | .loadPk => true

/-- Check 7: the windows the command reads as input (R122). -/
def inputWindows : Instr → List Window
  | .sign | .signRec => [.msg]
  | .verify | .verifyRec => [.msg, .sig]
  | .loadPk => [.pk]
  | .loadSk => [.sk]
  | .configure | .destroy | .keygen | .storeSk | .storePk => []

/-- An input length fits its window (R21, R122). -/
def lengthFits (s : State) (win : Window) : Bool := decide ((windowLen s win).toNat ≤ windowCap s.build win)

/-- Checks 3 to 7, for the commands that need a configured block, in their order (R122). -/
def configuredChecks (i : Instr) (s : State) : Option ErrCode :=
  if !s.status.configured then some .nullPointer
  else if !familyBuilt s.build i then some .disabledAtCompileTime
  else if (match neededVariant i with
      | some v => decide (s.acfg.variant ≠ v)
      | none => false) then some .outOfBounds
  else if !keyPresent s.status i then some .nullPointer
  else if !(inputWindows i).all (lengthFits s) then some .outOfBounds
  else none

/-- The DISPATCH checks 2 to 7; the first that fails gives the code (R122). Check 1 is the decoder's. -/
def dispatchError (i : Instr) (s : State) : Option ErrCode :=
  match i with
  | .configure => if s.status.configured then some .illegalCommand else none
  | .destroy => none
  | _ => configuredChecks i s

/-- State DISPATCH: the checks, then the first state of the command's rule (R35). -/
def dispatchStep (i : Instr) (first : Fsm) (s : State) : State :=
  match dispatchError i s with
  | some e => raiseError e s
  | none => { s with st := first }

/-- The states a command can be in while it runs (R34, R55). -/
def commandPath : Instr → List Fsm
  | .configure => [.dispatch, .cfValidate, .finish]
  | .destroy => [.dispatch, .cfTeardown, .finish]
  | .keygen => [.dispatch, .kgGenerate, .kgBasis, .kgSample, .kgTest, .kgCommit, .finish]
  | .loadSk => [.dispatch, .kyDecode, .kyBasis, .finish]
  | .loadPk => [.dispatch, .kyDecode, .finish]
  | .storeSk | .storePk => [.dispatch, .kyEncode, .finish]
  | .sign => [.dispatch, .sgOracle, .sgBasis, .sgSample, .sgEncode, .finish]
  | .signRec => [.dispatch, .sgOracle, .sgBasis, .sgSample, .sgEncode, .sgCompact, .finish]
  | .verify => [.dispatch, .vfDecode, .vfOracle, .vfNorm, .finish]
  | .verifyRec => [.dispatch, .vfDecode, .vfNorm, .vfRecon, .vfRecover, .vfMerge, .vfTag, .finish]

/-- The command runs: BUSY, and `st` on its path (R34). -/
def onPath (i : Instr) (s : State) : Bool := s.status.busy && (commandPath i).contains s.st

/-- Transitions of the running command until it ends, at most as many as the first argument says. -/
def runSteps (trans : State → State) : Nat → State → State
  | 0, s => s
  | k + 1, s => if s.status.busy then runSteps trans k (trans s) else s

/-- Enough transitions for any command: eight, and four for every candidate the generator still gives (R96). -/
def enoughSteps (s : State) : Nat := 8 + 4 * s.genPort.length

/-- The command calls a deterministic collaborator in the present state: hash/XOF, ring arithmetic, Gram-Schmidt or the
entropy coder (R10, R48; log 4). LOAD_PK asks for the transform of a key that passed both its checks only (R106). -/
def callsCollaborator (C : Collab) (i : Instr) (s : State) : Bool :=
  match s.st with
  | .sgOracle | .vfOracle | .vfRecover | .vfTag => true
  | .vfNorm => decide (i = .verify)
  | .vfRecon => true
  | .kgBasis => true
  | .kyBasis => s.acfg.keep
  | .sgBasis => !s.acfg.keep
  | .kgCommit => s.build.keepNtt
  | .kyDecode =>
    (decide (i = .loadSk) && decide (s.acfg.skCoding = .huffman))
      || (decide (i = .loadPk) && s.build.keepNtt && (decodedPk C s).isSome)
  | .kyEncode => decide (i = .storeSk) && decide (s.acfg.skCoding = .huffman)
  | .sgEncode | .vfDecode => decide (s.acfg.sigCoding = .huffman)
  | .unconfigured | .ready | .dispatch | .finish | .cfValidate | .cfTeardown | .kgGenerate | .kgSample | .kgTest
  | .sgSample | .sgCompact | .vfMerge => false

/-- The call of the present state gets no answer (R48). -/
def unanswered (C : Collab) (i : Instr) (s : State) : Bool := callsCollaborator C i s && s.silent.contains s.st

/-- A transition waits in its state for the answer of the collaborator it calls (R48). -/
def whenAnswered (C : Collab) (i : Instr) (trans : State → State) (s : State) : State :=
  if unanswered C i s then s else trans s

/-- A whole command as one transition over the draws it makes (R36): its FSM transitions from the present state to its
end, or to the state in which it waits for a collaborator (R48). -/
def runCommand (C : Collab) (i : Instr) (trans : State → State) (s : State) : Host.Outcome State Fault Refusal :=
  if onPath i s then .next (runSteps (whenAnswered C i trans) (enoughSteps s) s) else .fault .offPath

/-- The transitions of an illegal word: DISPATCH raises ILLEGAL_COMMAND (R51, R122 check 1). -/
def illegalStep (s : State) : State :=
  match s.st with
  | .dispatch => raiseError .illegalCommand s
  | .finish => endCommand s
  | _ => s

/-- An illegal word, run to its end (R51). -/
def runIllegal (s : State) : Host.Outcome State Fault Refusal :=
  if s.status.busy && [Fsm.dispatch, Fsm.finish].contains s.st then .next (runSteps illegalStep 2 s)
  else .fault .offPath

end Sys2Proof.Machine
end

