-- ==== Sys2Proof/Machine/Configure.lean ====
section
/-! DEFINITION. CONFIGURE and DESTROY (41_configure.md R83 - R85) and the layout of CFG0 and CFG1 (30_encoding.md R52 - R54). -/

namespace Sys2Proof.Machine

/-- The values of the 2-bit coding fields 0 and 1; 2 and 3 are out of bounds (R52). -/
def codingOf (v : Nat) : Coding := if v = 1 then .huffman else .none

/-- SAMP_PREC in bits (R52, R84). -/
def precisionOf (v : Nat) : Nat := [32, 64, 128, 192, 256].getD v 0

/-- REDUCTION (R52). -/
def reductionOf (v : Nat) : Reduction :=
  match v with
  | 0 => .ref
  | 1 => .barrett
  | 2 => .fp
  | _ => .hw

/-- GSO_PREC (R52); the value 3 is out of bounds. -/
def gsoPrecOf (v : Nat) : GsoPrec :=
  match v with
  | 0 => .g0
  | 1 => .g1
  | _ => .g2

/-- VARIANT, bit 4 of CFG0 (R52). -/
def variantOf (v : Word) : Variant := if v.getLsbD 4 then .recovery else .plain

/-- The field of CFG0 or CFG1 of width `len` at bit `lo`, unsigned (R12). -/
def cfgField (v : Word) (lo len : Nat) : Nat := (v.extractLsb' lo len).toNat

/-- PSET as an index; only 0 and 1 are legal (R52). -/
def psetOf (v : Word) : Fin 2 := if v.getLsbD 0 then 1 else 0

/-- The storage check of CONFIGURE: N_MAX and the capacities hold the selected set (R84, D35). -/
def storageFits (b : Build) (v : Variant) (ps : ParamSet) : Bool :=
  let elems := match v with
    | .plain => 1
    | .recovery => 2
  decide (ps.n ≤ b.nMax) && decide (byteCount (ps.n * ps.qBits) ≤ b.pkCap)
    && decide (byteCount (elems * ps.n * ps.qBits) ≤ b.sigCap)
    && decide (byteCount (2 * ps.n * ps.fgBits + 2 * ps.n * ps.fguBits) ≤ b.skCap)

/-- The configuration CFG0 and CFG1 encode, with the defaults of the selected set (R84). -/
def acfgOf (b : Build) (v w : Word) : Acfg :=
  let ps := b.pset (variantOf v) (psetOf v)
  { variant := variantOf v
    pset := psetOf v
    keep := v.getLsbD 5
    skCoding := codingOf (cfgField v 6 2)
    sigCoding := codingOf (cfgField v 8 2)
    sampPrec := precisionOf (cfgField v 10 3)
    sampImpl := v.extractLsb' 13 3
    reduction := reductionOf (cfgField v 16 2)
    gsoPrec := gsoPrecOf (cfgField v 18 2)
    hashId := if cfgField v 20 4 = 0 then ps.hashDefault else cfgField v 20 4
    dlen := if cfgField w 0 16 = 0 then ps.digestDefault else cfgField w 0 16
    omode := if v.getLsbD 24 then .xof else .csprng }

/-- CfgValidate(v, w): the checks in the rule's order, the first failure wins (R84). -/
def cfgValidate (b : Build) (v w : Word) : Except ErrCode Acfg :=
  if cfgField v 0 4 > 1 then .error .outOfBounds
  else if cfgField v 6 2 > 1 ∨ cfgField v 8 2 > 1 then .error .outOfBounds
  else if cfgField v 10 3 > 4 then .error .outOfBounds
  else if cfgField v 18 2 = 3 then .error .outOfBounds
  else if cfgField v 25 7 ≠ 0 ∨ cfgField w 16 16 ≠ 0 then .error .outOfBounds
  else if (cfgField v 6 2 = 1 ∨ cfgField v 8 2 = 1) ∧ b.huffman = false then .error .disabledAtCompileTime
  else if cfgField v 16 2 = 3 ∧ b.hwntt = false then .error .disabledAtCompileTime
  else if storageFits b (variantOf v) (b.pset (variantOf v) (psetOf v)) = false then .error .functionFailure
  else if b.cfgCompat (acfgOf b v w) = false then .error .outOfBounds
  else .ok (acfgOf b v w)

/-- What a successful CONFIGURE writes (R83). -/
def latchConfig (a : Acfg) (s : State) : State :=
  { s with
    acfg := a
    status := { s.status with configured := true, skValid := false, pkValid := false, basisValid := false }
    kgAttempts := 0, verifiedCnt := 0, unverifiedCnt := 0 }

/-- State CF_VALIDATE (R83). -/
def cfValidateStep (s : State) : State :=
  match cfgValidate s.build s.cfg0 s.cfg1 with
  | .error e => raiseError e s
  | .ok a => finishOk (latchConfig a s)

/-- The transitions of CONFIGURE (R83). -/
def configureStep (s : State) : State :=
  match s.st with
  | .dispatch => dispatchStep .configure .cfValidate s
  | .cfValidate => cfValidateStep s
  | .finish => endCommand s
  | _ => s

/-- CONFIGURE (R83). -/
def execConfigure (s : State) : Host.Outcome State Fault Refusal :=
  runCommand Config.collab .configure configureStep s

/-- What DESTROY zeroes: stores, windows, lengths, configuration, counters and the valid bits (R85). -/
def tearDown (s : State) : State :=
  { s with
    sk := SecretKey.zero, pk := [], pkNtt := [], basis := Basis.zero, tbasis := Basis.zero, scratch := Scratch.zero s.build
    mem := []
    msgLen := 0, sigLen := 0, pkLen := 0, skLen := 0, cfg0 := 0, cfg1 := 0, acfg := Acfg.zero
    kgAttempts := 0, verifiedCnt := 0, unverifiedCnt := 0
    status := { s.status with configured := false, skValid := false, pkValid := false, basisValid := false } }

/-- The transitions of DESTROY (R85). CUR_CMD takes its reset value as the command ends (R85, R141; log 27). -/
def destroyStep (s : State) : State :=
  match s.st with
  | .dispatch => dispatchStep .destroy .cfTeardown s
  | .cfTeardown => finishOk (tearDown s)
  | .finish => { endCommand s with curCmd := 0 }
  | _ => s

/-- DESTROY (R85). -/
def execDestroy (s : State) : Host.Outcome State Fault Refusal :=
  runCommand Config.collab .destroy destroyStep s

end Sys2Proof.Machine
end

