-- ==== Sys2Proof/Machine/Keygen.lean ====
section
/-! DEFINITION. KEYGEN (43_keygen.md R96 - R104). The loop has no bound (R103): it goes on for as long as the generator
and the sampler answer, from step to step without end, and waits where they do not (R48). -/

namespace Sys2Proof.Machine

/-- A generator answer read through its contract: N coefficients, f and g in FG_BITS, F and G in FGU_BITS, h in [0, Q)
(D66; log 5). -/
def contractCandidate (ps : ParamSet) (c : Candidate) : Candidate :=
  { key :=
      { f := vec ps.n fun i => signExtend ps.fgBits (patternOf ps.fgBits (coef c.key.f i))
        g := vec ps.n fun i => signExtend ps.fgBits (patternOf ps.fgBits (coef c.key.g i))
        bigF := vec ps.n fun i => signExtend ps.fguBits (patternOf ps.fguBits (coef c.key.bigF i))
        bigG := vec ps.n fun i => signExtend ps.fguBits (patternOf ps.fguBits (coef c.key.bigG i)) }
    h := vec ps.n fun i => coef c.h i % ps.q }

/-- A candidate into SCRATCH (R31, R97). -/
def putCandidate (c : Candidate) (s : State) : State :=
  let put := putWords s.build
  { s with
    scratch := put .h c.h
      (put .bigG c.key.bigG (put .bigF c.key.bigF (put .g c.key.g (put .f c.key.f s.scratch)))) }

/-- State KG_GENERATE: one generator answer; RETRY is tried again and does not count (R97, R98). In cache mode BASIS_VALID
is 0 from KG_BASIS on (R96, R99). -/
def kgGenerateStep (s : State) : State :=
  match s.genPort with
  | [] => s
  | .retry :: r => { s with genPort := r }
  | .cand c :: r =>
    putCandidate (contractCandidate s.ps c)
      { s with
        genPort := r
        kgAttempts := s.kgAttempts + 1
        status := { s.status with basisValid := if s.acfg.keep then false else s.status.basisValid }
        st := .kgBasis }

/-- The key of the candidate in SCRATCH. -/
def candidateKey (s : State) : SecretKey :=
  { f := scratchVec s .f s.ps.n, g := scratchVec s .g s.ps.n, bigF := scratchVec s .bigF s.ps.n
    bigG := scratchVec s .bigG s.ps.n }

/-- The public element of the candidate in SCRATCH. -/
def candidateH (s : State) : List Int := scratchVec s .h s.ps.n

/-- State KG_BASIS: CandidateBasis and the target. In cache mode BASIS is overwritten here (R99). -/
def kgBasisStep (C : Collab) (s : State) : State :=
  scratchPut .target (keygenTarget s.ps) { holdBasis (basisFor C s (candidateKey s)) s with st := .kgSample }

/-- The divisor DIV of the sample variance (R101). -/
def sdDivisor (b : Build) (ps : ParamSet) : Nat :=
  match b.sdDivisor with
  | .n => ps.n
  | .nMinusOne => ps.n - 1

/-- KgAccept(s, sigma) in the rule's exact form N·S2 - S1² <= DIV·N³·sigma² (R101). -/
def kgAccept (b : Build) (ps : ParamSet) (v : List Int) (sigma : Rat) : Bool :=
  let s1 := sumTo ps.n (coef v)
  let s2 := sumTo ps.n fun i => coef v i * coef v i
  decide (((ps.n * s2 - s1 * s1 : Int) : Rat) ≤ (sdDivisor b ps * ps.n ^ 3 : Nat) * (sigma * sigma))

/-- A candidate is given up: SCRATCH is zeroed and the loop starts again (R96). -/
def kgRestart (s : State) : State := { s with scratch := Scratch.zero s.build, st := .kgGenerate }

/-- State KG_SAMPLE: one sampler answer; the basis is released; FAIL restarts the loop (R100). -/
def kgSampleStep (s : State) : State :=
  match s.sampPort with
  | [] => s
  | .fail :: r => kgRestart (releaseBasis { s with sampPort := r })
  | .ok s1 _ :: r =>
    releaseBasis
      (scratchPut .s1 (contractSample s.ps s1) { s with sampPort := r, st := .kgTest })

/-- The width the candidate in SCRATCH is sampled with. It is kept in no word of its own: BuildBasis is deterministic, so
the candidate determines it (R87, R99; log 13). -/
def candidateSigma (C : Collab) (s : State) : Rat := keygenSigma (basisFor C s (candidateKey s))

/-- State KG_TEST (R101). -/
def kgTestStep (C : Collab) (s : State) : State :=
  if kgAccept s.build s.ps (scratchVec s .s1 s.ps.n) (candidateSigma C s) then { s with st := .kgCommit }
  else kgRestart s

/-- State KG_COMMIT (R102). -/
def kgCommitStep (C : Collab) (s : State) : State :=
  finishOk
    { s with
      sk := candidateKey s
      pk := candidateH s
      pkNtt := nttOf C s (candidateH s)
      status := { s.status with skValid := true, pkValid := true, basisValid := s.acfg.keep }
      scratch := Scratch.zero s.build }

/-- The transitions of KEYGEN (R96). -/
def keygenStep (C : Collab) (s : State) : State :=
  match s.st with
  | .dispatch => dispatchStep .keygen .kgGenerate s
  | .kgGenerate => kgGenerateStep s
  | .kgBasis => kgBasisStep C s
  | .kgSample => kgSampleStep s
  | .kgTest => kgTestStep C s
  | .kgCommit => kgCommitStep C s
  | .finish => endCommand s
  | _ => s

/-- KEYGEN with the collaborators `C` (R96). -/
def keygenWith (C : Collab) (s : State) : Host.Outcome State Fault Refusal := runCommand C .keygen (keygenStep C) s

/-- KEYGEN (R96). -/
def execKeygen (s : State) : Host.Outcome State Fault Refusal := keygenWith Config.collab s

end Sys2Proof.Machine
end

