-- ==== Sys2Proof/Machine/Keys.lean ====
section
/-! DEFINITION. LOAD_SK, LOAD_PK, STORE_SK and STORE_PK (44_keys.md R105 - R108). -/

namespace Sys2Proof.Machine

/-- State KY_DECODE of LOAD_SK (R105). In cache mode the old basis is invalid from KY_BASIS on, where the new one is built;
in transient mode InstallKey only invalidates (R92). -/
def loadSkDecodeStep (C : Collab) (s : State) : State :=
  match unpackWindow C s .sk (skSchema s.ps s.acfg) with
  | some [f, g, bigF, bigG] =>
    let s' := { s with
      sk := { f := f, g := g, bigF := bigF, bigG := bigG }, status := { s.status with skValid := true } }
    if s.acfg.keep then { invalidateBasis s' with st := .kyBasis } else finishOk (installKey C s')
  | _ => raiseError .outOfBounds s

/-- The transitions of LOAD_SK (R105). -/
def loadSkStep (C : Collab) (s : State) : State :=
  match s.st with
  | .dispatch => dispatchStep .loadSk .kyDecode s
  | .kyDecode => loadSkDecodeStep C s
  | .kyBasis => finishOk (installKey C s)
  | .finish => endCommand s
  | _ => s

/-- LOAD_SK with the collaborators `C` (R105). -/
def loadSkWith (C : Collab) (s : State) : Host.Outcome State Fault Refusal := runCommand C .loadSk (loadSkStep C) s

/-- LOAD_SK (R105). -/
def execLoadSk (s : State) : Host.Outcome State Fault Refusal := loadSkWith Config.collab s

/-- State KY_DECODE of LOAD_PK (R106). -/
def loadPkDecodeStep (C : Collab) (s : State) : State :=
  match decodedPk C s with
  | some h => finishOk { s with pk := h, pkNtt := nttOf C s h, status := { s.status with pkValid := true } }
  | none => raiseError .outOfBounds s

/-- The transitions of LOAD_PK (R106). -/
def loadPkStep (C : Collab) (s : State) : State :=
  match s.st with
  | .dispatch => dispatchStep .loadPk .kyDecode s
  | .kyDecode => loadPkDecodeStep C s
  | .finish => endCommand s
  | _ => s

/-- LOAD_PK with the collaborators `C` (R106). -/
def loadPkWith (C : Collab) (s : State) : Host.Outcome State Fault Refusal := runCommand C .loadPk (loadPkStep C) s

/-- LOAD_PK (R106). -/
def execLoadPk (s : State) : Host.Outcome State Fault Refusal := loadPkWith Config.collab s

/-- State KY_ENCODE of STORE_SK (R107). -/
def storeSkEncodeStep (C : Collab) (s : State) : State :=
  let bytes := packSk C s
  if bytes.length > s.build.skCap then raiseError .functionFailure s else finishOk (windowStore .sk bytes s)

/-- The transitions of STORE_SK (R107). -/
def storeSkStep (C : Collab) (s : State) : State :=
  match s.st with
  | .dispatch => dispatchStep .storeSk .kyEncode s
  | .kyEncode => storeSkEncodeStep C s
  | .finish => endCommand s
  | _ => s

/-- STORE_SK with the collaborators `C` (R107). -/
def storeSkWith (C : Collab) (s : State) : Host.Outcome State Fault Refusal := runCommand C .storeSk (storeSkStep C) s

/-- STORE_SK (R107). -/
def execStoreSk (s : State) : Host.Outcome State Fault Refusal := storeSkWith Config.collab s

/-- The transitions of STORE_PK; its length never exceeds PK_CAP, so KY_ENCODE has no failure (R108). -/
def storePkStep (C : Collab) (s : State) : State :=
  match s.st with
  | .dispatch => dispatchStep .storePk .kyEncode s
  | .kyEncode => finishOk (windowStore .pk (packPk C s) s)
  | .finish => endCommand s
  | _ => s

/-- STORE_PK with the collaborators `C` (R108). -/
def storePkWith (C : Collab) (s : State) : Host.Outcome State Fault Refusal := runCommand C .storePk (storePkStep C) s

/-- STORE_PK (R108). -/
def execStorePk (s : State) : Host.Outcome State Fault Refusal := storePkWith Config.collab s

end Sys2Proof.Machine
end

