-- ==== Sys2Proof/Machine/Sign.lean ====
section
/-! DEFINITION. SIGN and SIGN_REC (45_sign.md R109 - R112). -/

namespace Sys2Proof.Machine

/-- State SG_ORACLE of SIGN: the target c = RO_MAP(oc, msg) (R109). -/
def signOracleStep (C : Collab) (s : State) : State :=
  scratchPut .target (roMap C s.ps s.acfg.oracle (message s)) { s with st := .sgBasis }

/-- State SG_ORACLE of SIGN_REC: the target c = RecTarget(msg, M) (R110). -/
def signRecOracleStep (C : Collab) (s : State) : State :=
  scratchPut .target (recTarget C s.build.bitOrder s.ps s.acfg.oracle (message s)) { s with st := .sgBasis }

/-- State SG_BASIS (R90, R109, R110). -/
def signBasisStep (C : Collab) (s : State) : State := { getBasis C s with st := .sgSample }

/-- A signing command that produced no signature: the SIG window and SIG_LEN are zeroed, MSG is left (R109, R110, D30). -/
def signFail (e : ErrCode) (s : State) : State := raiseError e (windowZero .sig s)

/-- State SG_SAMPLE: one sampler answer; the basis is released; the vectors are centred, the second one where two were
asked for (R109, R110). -/
def signSampleStep (two : Bool) (s : State) : State :=
  match s.sampPort with
  | [] => s
  | .fail :: r => signFail .samplingFailure (releaseBasis { s with sampPort := r })
  | .ok s1 s2 :: r =>
    let s' := scratchPut .s1 (center s.ps (contractSample s.ps s1)) { s with sampPort := r, st := .sgEncode }
    releaseBasis (if two then scratchPut .s2 (center s.ps (contractSample s.ps s2)) s' else s')

/-- State SG_ENCODE with the signature's bytes, and what follows a stored signature (R109, R110). -/
def signEncodeStep (bytes : List Byte) (andThen : State → State) (s : State) : State :=
  if bytes.length > s.build.sigCap then signFail .functionFailure s else andThen (windowStore .sig bytes s)

/-- The transitions of SIGN (R109). -/
def signStep (C : Collab) (s : State) : State :=
  match s.st with
  | .dispatch => dispatchStep .sign .sgOracle s
  | .sgOracle => signOracleStep C s
  | .sgBasis => signBasisStep C s
  | .sgSample => signSampleStep false s
  | .sgEncode => signEncodeStep (packSig C s [scratchVec s .s1 s.ps.n]) finishOk s
  | .finish => endCommand s
  | _ => s

/-- SIGN with the collaborators `C` (R109). -/
def signWith (C : Collab) (s : State) : Host.Outcome State Fault Refusal := runCommand C .sign (signStep C) s

/-- SIGN (R109). -/
def execSign (s : State) : Host.Outcome State Fault Refusal := signWith Config.collab s

/-- State SG_COMPACT: the message is rewritten to m2 (R110). -/
def signCompactStep (s : State) : State :=
  finishOk (windowStore .msg (compact s.build.bitOrder s.ps (message s)) s)

/-- The transitions of SIGN_REC (R110). -/
def signRecStep (C : Collab) (s : State) : State :=
  match s.st with
  | .dispatch => dispatchStep .signRec .sgOracle s
  | .sgOracle => signRecOracleStep C s
  | .sgBasis => signBasisStep C s
  | .sgSample => signSampleStep true s
  | .sgEncode =>
    signEncodeStep (packSig C s [scratchVec s .s1 s.ps.n, scratchVec s .s2 s.ps.n])
      (fun t => { t with st := .sgCompact }) s
  | .sgCompact => signCompactStep s
  | .finish => endCommand s
  | _ => s

/-- SIGN_REC with the collaborators `C` (R110). -/
def signRecWith (C : Collab) (s : State) : Host.Outcome State Fault Refusal := runCommand C .signRec (signRecStep C) s

/-- SIGN_REC (R110). -/
def execSignRec (s : State) : Host.Outcome State Fault Refusal := signRecWith Config.collab s

end Sys2Proof.Machine
end

