-- ==== Sys2Proof/Machine/Verify.lean ====
section
/-! DEFINITION. VERIFY and VERIFY_REC (46_verify.md R114 - R119). -/

namespace Sys2Proof.Machine

/-- State VF_DECODE of VERIFY (R114). -/
def verifyDecodeStep (C : Collab) (s : State) : State :=
  match unpackWindow C s .sig [sigElem s.ps s.acfg] with
  | some [s1] => scratchPut .s1 s1 { s with st := .vfOracle }
  | _ => reject s

/-- State VF_ORACLE: the target c = RO_MAP(oc, msg) (R114). -/
def verifyOracleStep (C : Collab) (s : State) : State :=
  scratchPut .target (roMap C s.ps s.acfg.oracle (message s)) { s with st := .vfNorm }

/-- s2 = center(c - h·s1) of the plain verifier (R114). -/
def verifyS2 (b : Build) (ps : ParamSet) (h c s1 : List Int) : List Int :=
  center ps (vecSub ps.n c (ringMul b.ringPoly ps h s1))

/-- State VF_NORM of VERIFY: the one check after the decode (R114). -/
def verifyNormStep (s : State) : State :=
  let s1 := scratchVec s .s1 s.ps.n
  if normOk s.ps s1 (verifyS2 s.build s.ps s.pk (scratchVec s .target s.ps.n) s1) then accept s else reject s

/-- The transitions of VERIFY (R114). -/
def verifyStep (C : Collab) (s : State) : State :=
  match s.st with
  | .dispatch => dispatchStep .verify .vfDecode s
  | .vfDecode => verifyDecodeStep C s
  | .vfOracle => verifyOracleStep C s
  | .vfNorm => verifyNormStep s
  | .finish => endCommand s
  | _ => s

/-- VERIFY with the collaborators `C` (R114). -/
def verifyWith (C : Collab) (s : State) : Host.Outcome State Fault Refusal := runCommand C .verify (verifyStep C) s

/-- VERIFY (R114). -/
def execVerify (s : State) : Host.Outcome State Fault Refusal := verifyWith Config.collab s

/-- A rejection of VERIFY_REC also zeroes the MSG window and MSG_LEN, whatever check failed (R117, R128). -/
def rejectRec (s : State) : State := reject (windowZero .msg s)

/-- State VF_DECODE of VERIFY_REC (R115). -/
def verifyRecDecodeStep (C : Collab) (s : State) : State :=
  match unpackWindow C s .sig [sigElem s.ps s.acfg, sigElem s.ps s.acfg] with
  | some [s1, s2] => scratchPut .s2 s2 (scratchPut .s1 s1 { s with st := .vfNorm })
  | _ => rejectRec s

/-- State VF_NORM of VERIFY_REC (R115). -/
def verifyRecNormStep (s : State) : State :=
  if normOk s.ps (scratchVec s .s1 s.ps.n) (scratchVec s .s2 s.ps.n) then { s with st := .vfRecon } else rejectRec s

/-- t = normalize(h·s1 + s2) (R115). -/
def reconstruct (b : Build) (ps : ParamSet) (h s1 s2 : List Int) : List Int :=
  normalize ps (vecAdd ps.n (ringMul b.ringPoly ps h s1) s2)

/-- State VF_RECON (R115). -/
def verifyReconStep (s : State) : State :=
  scratchPut .t (reconstruct s.build s.ps s.pk (scratchVec s .s1 s.ps.n) (scratchVec s .s2 s.ps.n))
    { s with st := .vfRecover }

/-- State VF_RECOVER (R80, R115). -/
def verifyRecoverStep (C : Collab) (s : State) : State :=
  let t := scratchVec s .t s.ps.n
  let m1 := recoverM1 C s.ps s.acfg.oracle t
  if recoverOk s.ps m1 then
    scratchPut .t2 (recoverTag s.ps t) (scratchPut .m1 m1 { s with st := .vfMerge })
  else rejectRec s

/-- The merged message of VERIFY_REC: the m1 bits are in SCRATCH and the m2 bytes still in the MSG window, so it is kept in
no word of its own (R81, R115; log 13). -/
def mergedMessage (s : State) : List Byte :=
  merge s.build.bitOrder s.ps (scratchVec s .m1 (s.ps.n - s.ps.k)) (message s)

/-- State VF_MERGE: the merged message fits the MSG window or is rejected (R115, D44). -/
def verifyMergeStep (s : State) : State :=
  if a1Of s.ps + s.msgLen.toNat > s.build.msgCap then rejectRec s else { s with st := .vfTag }

/-- State VF_TAG: MSG is read as m2 before it is rewritten, and only when the tag agrees (R115). -/
def verifyTagStep (C : Collab) (s : State) : State :=
  let mm := mergedMessage s
  if cteq s.ps.k (roTag C s.ps s.acfg.oracle mm) (scratchVec s .t2 s.ps.k) then accept (windowStore .msg mm s)
  else rejectRec s

/-- The transitions of VERIFY_REC (R115). -/
def verifyRecStep (C : Collab) (s : State) : State :=
  match s.st with
  | .dispatch => dispatchStep .verifyRec .vfDecode s
  | .vfDecode => verifyRecDecodeStep C s
  | .vfNorm => verifyRecNormStep s
  | .vfRecon => verifyReconStep s
  | .vfRecover => verifyRecoverStep C s
  | .vfMerge => verifyMergeStep s
  | .vfTag => verifyTagStep C s
  | .finish => endCommand s
  | _ => s

/-- VERIFY_REC with the collaborators `C` (R115). -/
def verifyRecWith (C : Collab) (s : State) : Host.Outcome State Fault Refusal :=
  runCommand C .verifyRec (verifyRecStep C) s

/-- VERIFY_REC (R115). -/
def execVerifyRec (s : State) : Host.Outcome State Fault Refusal := verifyRecWith Config.collab s

end Sys2Proof.Machine
end

