-- ==== Sys2Proof/Machine/Advance.lean ====
section
/-! DEFINITION. One FSM transition of the running command (10_state.md R34): what the block does between two host accesses
that land inside a command (R36; 60_exceptions.md R123). -/

namespace Sys2Proof.Machine

/-- The transition function of a command with the collaborators `C`: the one its meaning runs to the end. -/
def transition (C : Collab) : Instr → State → State
  | .configure => configureStep
  | .destroy => destroyStep
  | .keygen => keygenStep C
  | .loadSk => loadSkStep C
  | .loadPk => loadPkStep C
  | .storeSk => storeSkStep C
  | .storePk => storePkStep C
  | .sign => signStep C
  | .signRec => signRecStep C
  | .verify => verifyStep C
  | .verifyRec => verifyRecStep C

/-- One transition of command `i` (R34, R36). -/
def advance (i : Instr) (s : State) : Host.Outcome State Fault Refusal :=
  if onPath i s then .next (whenAnswered Config.collab i (transition Config.collab i) s) else .fault .offPath

/-- One transition of an illegal word (R51). -/
def advanceIllegal (s : State) : Host.Outcome State Fault Refusal :=
  if s.status.busy && [Fsm.dispatch, Fsm.finish].contains s.st then .next (illegalStep s) else .fault .offPath

end Sys2Proof.Machine
end

