-- ==== Sys2Proof/Machine/Dispatch.lean ====
section
/-! DEFINITION. One arm per command of 30_encoding.md R50. -/

namespace Sys2Proof.Machine

def exec (i : Instr) (s : State) : Host.Outcome State Fault Refusal :=
  match i with
  | .configure => Sys2Proof.Machine.execConfigure s
  | .destroy => Sys2Proof.Machine.execDestroy s
  | .keygen => Sys2Proof.Machine.execKeygen s
  | .loadSk => Sys2Proof.Machine.execLoadSk s
  | .loadPk => Sys2Proof.Machine.execLoadPk s
  | .storeSk => Sys2Proof.Machine.execStoreSk s
  | .storePk => Sys2Proof.Machine.execStorePk s
  | .sign => Sys2Proof.Machine.execSign s
  | .signRec => Sys2Proof.Machine.execSignRec s
  | .verify => Sys2Proof.Machine.execVerify s
  | .verifyRec => Sys2Proof.Machine.execVerifyRec s

end Sys2Proof.Machine
end

