-- ==== Sys2Proof/Machine/Step.lean ====
section
/-! DEFINITION. One step of the block: a host access or reset, one FSM transition before an access that lands inside the
running command, or the rest of the running command (10_state.md R34 - R36; 20_memory.md R44). -/

namespace Sys2Proof.Machine

/-- The running command, decoded from CUR_CMD, to its end (R35, R36). -/
def runCurrent (s : State) : Host.Outcome State Fault Refusal :=
  match decode s.curCmd with
  | .ok i => exec i s
  | .error _ => runIllegal s

/-- One FSM transition of the running command (R34). -/
def advanceCurrent (s : State) : Host.Outcome State Fault Refusal :=
  match decode s.curCmd with
  | .ok i => advance i s
  | .error _ => advanceIllegal s

/-- The collaborators' next turn, as the running command meets it: an answer comes to the request that waits for one, and
some calls of this step get no answer (R48; log 4). -/
def receive (s : State) : State :=
  let r := Config.replies s.turn
  { s with
    turn := s.turn + 1
    silent := r.silent
    genPort := if s.st = .kgGenerate ∧ s.genPort = [] then r.gen.toList else s.genPort
    sampPort := if (s.st = .kgSample ∨ s.st = .sgSample) ∧ s.sampPort = [] then r.samp.toList else s.sampPort }

/-- One step. While no command runs, the next arrival lands; with none to come the block idles (R138). While one runs,
the next arrival lands when its count of transitions is used up, or after the command's end. -/
def step (s : State) : Host.Outcome State Fault Refusal :=
  match s.inbox with
  | [] => if s.status.busy then runCurrent (receive s) else .next s
  | a :: rest =>
    if s.status.busy then
      match a.during with
      | none => runCurrent (receive s)
      | some 0 => .next (hostEvent a.event { s with inbox := rest })
      | some (k + 1) => advanceCurrent (receive { s with inbox := { a with during := some k } :: rest })
    else .next (hostEvent a.event { s with inbox := rest })

/-- `s` with the CMD write of the word `w` taken (R18), the next arrival waiting for the command's end, so that the very
next step decodes and runs `w` in DISPATCH. `nbits` bits of `w` count (R49; log 1). -/
def State.withFetchWord (s : State) (nbits w : Nat) : State :=
  startCommand (BitVec.ofNat 32 (w % 2 ^ nbits))
    { s with
      inbox := match s.inbox with
        | [] => []
        | a :: rest => { a with during := none } :: rest }

end Sys2Proof.Machine
end

