-- ==== Sys2Proof/Machine/HostProgram.lean ====
section
/-! DEFINITION. The host-program notation of 30_encoding.md R60, as the arrivals it expands to. Each access is issued when the
command before it has ended, which is what the pseudo-instruction `wait` achieves; `inside k` places one inside a
running command instead (log 3). -/

namespace Sys2Proof.Machine

/-- `wr ADDR, VALUE` (R60). -/
def hostWr (a : BusAddr) (d : Word) : Arrival := { during := none, event := .write a d 0xF }

/-- `wrbe ADDR, VALUE, BE` (R60). -/
def hostWrbe (a : BusAddr) (d : Word) (be : ByteEnables) : Arrival := { during := none, event := .write a d be }

/-- `rd ADDR -> NAME` (R60). -/
def hostRd (a : BusAddr) : Arrival := { during := none, event := .read a }

/-- `cmd MNEMONIC` (R60). -/
def hostCmd (i : Instr) : Arrival := hostWr 0x010 (encode i)

/-- `ack` (R60, R130). -/
def hostAck : Arrival := hostWr 0x014 0x00000602

/-- The same access, `k` FSM transitions into the running command. -/
def inside (k : Nat) (a : Arrival) : Arrival := { a with during := some k }

/-- Word j of a byte list, little-endian, absent bytes 0 (R40, R60). -/
def hostWord (bs : List Byte) (j : Nat) : Word :=
  bs.getD (4 * j + 3) 0 ++ bs.getD (4 * j + 2) 0 ++ bs.getD (4 * j + 1) 0 ++ bs.getD (4 * j) 0

/-- The byte enables of word j: those bytes the list has (R60). -/
def hostEnables (m j : Nat) : ByteEnables :=
  BitVec.ofBool (decide (4 * j + 3 < m)) ++ BitVec.ofBool (decide (4 * j + 2 < m))
    ++ BitVec.ofBool (decide (4 * j + 1 < m)) ++ BitVec.ofBool (decide (4 * j < m))

/-- `wrbuf WIN, OFF, b0 b1 ...` (R60). -/
def hostWrbuf (win : Window) (off : Nat) (bs : List Byte) : List Arrival :=
  (List.range ((bs.length + 3) / 4)).map fun j =>
    hostWrbe (BitVec.ofNat 20 (windowBase win + off + 4 * j)) (hostWord bs j) (hostEnables bs.length j)

/-- `rdbuf WIN, OFF, m -> NAME` (R60). -/
def hostRdbuf (win : Window) (off m : Nat) : List Arrival :=
  (List.range ((m + 3) / 4)).map fun j => hostRd (BitVec.ofNat 20 (windowBase win + off + 4 * j))

end Sys2Proof.Machine
end

