-- ==== Sys2Proof/Safety.lean ====
section
/-! DEFINITION. What counts as a safe state and a safe run, in the spec's own whole-machine rules. -/

namespace Sys2Proof.Machine

/-- The step from `s` does not stop the machine. -/
def StepsOn (s : State) : Prop := ∃ t, step s = .next t

/-- `st` is UNCONFIGURED or READY exactly when BUSY = 0, and on the running command's path otherwise (R34, R55). -/
def ControlInv (s : State) : Prop :=
  (s.status.busy = false → s.st = idleState s.status)
    ∧ (s.status.busy = true → match decode s.curCmd with
        | .ok i => s.st ∈ commandPath i
        | .error _ => s.st = .dispatch ∨ s.st = .finish)

/-- SCRATCH is 7·N_MAX words of SCRATCH_W bits, and at a command boundary it and TBASIS are zero (R30, R31, R124). -/
def ScrubInv (s : State) : Prop :=
  s.scratch.length = 7 * s.build.nMax ∧ (∀ x ∈ s.scratch, x < 2 ^ s.build.scratchW)
    ∧ (s.status.busy = false → s.scratch = Scratch.zero s.build ∧ s.tbasis = Basis.zero)

/-- The outcome bits agree with each other and with ERRCODE (R19, R120): a hard error has a hard-error code, a rejection
code 5, an acceptance code 0, at most one of the three bits is 1, and none is before the command has reached FINISH. -/
def OutcomeInv (s : State) : Prop :=
  (s.status.err = true ↔ s.status.errcode ≠ .none ∧ s.status.errcode ≠ .verificationRejected)
    ∧ (s.status.reject = true ↔ s.status.errcode = .verificationRejected)
    ∧ (s.status.accept = true → s.status.errcode = .none)
    ∧ (s.status.busy = true → s.st ≠ .finish → s.status.accept = false ∧ s.status.errcode = .none)

/-- What holds of the basis (R29, R90, R96, R99): BASIS_VALID implies cache mode, a key, and BASIS built of that key; in
cache mode BASIS_VALID is 0 from KG_BASIS to KG_COMMIT, and from KG_SAMPLE on BASIS is the candidate's; in KY_BASIS the key
is already installed (R105); and in cache mode an installed key has its basis, but while KEYGEN or LOAD_SK replaces it. -/
def BasisInv (s : State) : Prop :=
  (s.status.basisValid = true → s.acfg.keep = true ∧ s.status.skValid = true ∧ s.basis = basisFor Config.collab s s.sk)
    ∧ (s.status.busy = true → s.acfg.keep = true → s.st ∈ [Fsm.kgBasis, .kgSample, .kgTest, .kgCommit] →
        s.status.basisValid = false)
    ∧ (s.status.busy = true → s.acfg.keep = true → s.st ∈ [Fsm.kgSample, .kgTest, .kgCommit] →
        s.basis = basisFor Config.collab s (candidateKey s))
    ∧ (s.status.busy = true → s.st = .kyBasis → s.status.skValid = true)
    ∧ (s.acfg.keep = true → s.status.skValid = true → s.status.basisValid = true
        ∨ (s.status.busy = true ∧ s.st ∈ [Fsm.kgGenerate, .kgBasis, .kgSample, .kgTest, .kgCommit, .kyBasis]))

/-- `v` is a vector of `n` signed values of width `w` (R26). -/
def SignedVec (n w : Nat) (v : List Int) : Prop := v.length = n ∧ ∀ x ∈ v, -(2 ^ (w - 1) : Int) ≤ x ∧ x < 2 ^ (w - 1)

/-- A private key in the ranges of R26. -/
def KeyInRange (ps : ParamSet) (k : SecretKey) : Prop :=
  SignedVec ps.n ps.fgBits k.f ∧ SignedVec ps.n ps.fgBits k.g ∧ SignedVec ps.n ps.fguBits k.bigF
    ∧ SignedVec ps.n ps.fguBits k.bigG

/-- A public element in the range of R27. -/
def PublicInRange (ps : ParamSet) (h : List Int) : Prop := h.length = ps.n ∧ ∀ x ∈ h, 0 ≤ x ∧ x < ps.q

/-- The key stores hold values in their ranges whenever they are valid (R26, R27), and so does a candidate the running
KEYGEN may commit (D66); the build meets its constraints (R7). -/
def KeyInv (s : State) : Prop :=
  s.build.wf = true
    ∧ (s.status.skValid = true → KeyInRange s.ps s.sk)
    ∧ (s.status.pkValid = true → PublicInRange s.ps s.pk)
    ∧ (s.status.busy = true → s.st = .kgBasis ∨ s.st = .kgSample ∨ s.st = .kgTest ∨ s.st = .kgCommit →
        KeyInRange s.ps (candidateKey s) ∧ PublicInRange s.ps (candidateH s))

/-- A configured block has the storage its set needs (R84); an unconfigured one has ACFG zero and no valid store (R25,
R85, R139); past DISPATCH only CONFIGURE and DESTROY run unconfigured (R122). -/
def ConfigInv (s : State) : Prop :=
  (s.status.configured = true → storageFits s.build s.acfg.variant s.ps = true)
    ∧ (s.status.configured = false → s.acfg = Acfg.zero ∧ s.status.skValid = false ∧ s.status.pkValid = false
        ∧ s.status.basisValid = false)
    ∧ (s.status.busy = true → s.status.configured = false →
        s.st ∈ [Fsm.dispatch, .cfValidate, .cfTeardown, .finish])

/-- What the host can reach without a command: the state with the secret stores taken out (R95, R132). -/
def publicPart (s : State) : State :=
  { s with sk := SecretKey.zero, pkNtt := [], basis := Basis.zero, tbasis := Basis.zero, scratch := Scratch.zero s.build }

end Sys2Proof.Machine
end

