-- ==== Sys2Proof/Certificates/Slice0/Obligations.lean ====
section
/-! DEFINITION. The statements for the provers. Each says in its docstring which rule of spec/ it formalises. `ended`,
`failed`, `accepted` and `rejected` write out rules R124, R126, R127 and R128. -/

namespace Sys2Proof.Claims

open Sys2Proof.Machine

/-- A command has been taken and is in state DISPATCH (R18, R35). -/
def AtDispatch (s : State) : Prop := s.status.busy = true ∧ s.st = .dispatch

/-- What the ending sequence leaves (R124). -/
def ended (s : State) : State :=
  { s with
    scratch := Scratch.zero s.build
    tbasis := Basis.zero
    status := { s.status with busy := false, done := true }
    st := if s.status.configured = true then .ready else .unconfigured
    shown := Shown.zero }

/-- What a hard error leaves of the state its rule has left (R126). -/
def failed (e : ErrCode) (s : State) : State := ended { s with status := { s.status with err := true, errcode := e } }

/-- What an acceptance leaves (R116, R127). -/
def accepted (s : State) : State :=
  ended { s with status := { s.status with accept := true }, verifiedCnt := s.verifiedCnt + 1 }

/-- What a rejection leaves (R116, R128). -/
def rejected (s : State) : State :=
  ended
    { s with
      status := { s.status with reject := true, errcode := .verificationRejected }
      unverifiedCnt := s.unverifiedCnt + 1 }

/-- The eleven command words of R50. -/
def commandWords : List (Word × Instr) :=
  [(0x00000001, .configure), (0x00000002, .destroy), (0x00000010, .keygen), (0x00000011, .loadSk),
   (0x00000012, .loadPk), (0x00000013, .storeSk), (0x00000014, .storePk), (0x00000020, .sign),
   (0x00000021, .signRec), (0x00000030, .verify), (0x00000031, .verifyRec)]

/-- The vectors of the active set fit a place of SCRATCH and their values a word of it, so that SCRATCH holds them exactly
(R31; log 13). It follows from the build's constraints and the storage check of CONFIGURE (R7, R84), which the invariants
`KeyInv` and `ConfigInv` keep: Tests.fits_of_invariants. -/
def Fits (s : State) : Prop :=
  s.ps.n ≤ s.build.nMax ∧ s.ps.k ≤ s.ps.n ∧ 1 ≤ s.ps.q ∧ s.ps.q < 2 ^ s.ps.qBits
    ∧ s.ps.fitsWord s.build.scratchW = true

/-- A command that needs a configured block, a family of the build, a variant, a key and input lengths has them: the
checks of R122 written out for the four signing and verifying commands; and every collaborator called answers (R48). -/
def SignReady (v : Variant) (s : State) : Prop :=
  Fits s ∧ AtDispatch s ∧ s.status.configured = true ∧ s.build.sign = true ∧ s.acfg.variant = v ∧ s.status.skValid = true
    ∧ s.msgLen.toNat ≤ s.build.msgCap ∧ s.silent = []

/-- As `SignReady`, for VERIFY and VERIFY_REC (R122). -/
def VerifyReady (v : Variant) (s : State) : Prop :=
  Fits s ∧ AtDispatch s ∧ s.status.configured = true ∧ s.build.verify = true ∧ s.acfg.variant = v ∧ s.status.pkValid = true
    ∧ s.msgLen.toNat ≤ s.build.msgCap ∧ s.sigLen.toNat ≤ s.build.sigCap ∧ s.silent = []

/-- The windows a command may write (R126, R145, R147). DESTROY is left out: it zeroes them all. -/
def writtenWindows : Instr → List Window
  | .storeSk => [.sk]
  | .storePk => [.pk]
  | .sign => [.sig]
  | .signRec => [.sig, .msg]
  | .verifyRec => [.msg]
  | .configure | .destroy | .keygen | .loadSk | .loadPk | .verify => []

/-- The address lies in the window's buffer (R38, R39). -/
def InWindow (b : Build) (win : Window) (a : Nat) : Prop := windowBase win ≤ a ∧ a < windowBase win + windowCap b win

/-- The reserved addresses of R38. -/
def Reserved (a : Nat) : Prop := (0x068 ≤ a ∧ a < 0x10000) ∨ 0x50000 ≤ a

/-- The same state but that BUSY = 0. -/
def whenIdle (s : State) : State := { s with status := { s.status with busy := false } }

/-- The registers the host sees: while a command runs, those of its CMD write (`State.shown`), with no outcome yet, but for
FSM_STATE, KG_ATTEMPTS, DONE, OVERRUN, BUSERR and LAST_OP, and for KEYGEN also BASIS_VALID (R36, R137, C9; log 2). -/
def seen (s : State) : State :=
  if s.status.busy = true then
    { s with
      cfg0 := s.shown.cfg0, cfg1 := s.shown.cfg1, msgLen := s.shown.msgLen, sigLen := s.shown.sigLen
      pkLen := s.shown.pkLen, skLen := s.shown.skLen, verifiedCnt := s.shown.verifiedCnt
      unverifiedCnt := s.shown.unverifiedCnt, acfg := s.shown.acfg
      status :=
        { busy := true, done := s.status.done, err := false, accept := false, reject := false
          configured := s.shown.configured, skValid := s.shown.skValid, pkValid := s.shown.pkValid
          basisValid := if s.curCmd = 0x00000010 then s.status.basisValid else s.shown.basisValid
          overrun := s.status.overrun, busErr := s.status.busErr, errcode := .none, lastOp := s.status.lastOp } }
  else s

/-- What the collaborators' next turn leaves: an answer for the request that waits for one, and the calls of the coming step
that get none (R48; log 4). -/
def answered (s : State) : State :=
  { s with
    turn := s.turn + 1
    silent := (Config.replies s.turn).silent
    genPort := if s.st = .kgGenerate ∧ s.genPort = [] then (Config.replies s.turn).gen.toList else s.genPort
    sampPort := if (s.st = .kgSample ∨ s.st = .sgSample) ∧ s.sampPort = [] then (Config.replies s.turn).samp.toList
      else s.sampPort }

/-- The eight outcome codes of R120. -/
def errCodes : List (ErrCode × Nat) :=
  [(.none, 0), (.nullPointer, 1), (.outOfBounds, 2), (.disabledAtCompileTime, 3), (.samplingFailure, 4),
   (.verificationRejected, 5), (.functionFailure, 6), (.illegalCommand, 7)]

/-- The twenty-six FSM codes of R55. -/
def fsmCodes : List (Fsm × Nat) :=
  [(.unconfigured, 0x00), (.ready, 0x01), (.dispatch, 0x02), (.finish, 0x03), (.cfValidate, 0x08), (.cfTeardown, 0x09),
   (.kgGenerate, 0x10), (.kgBasis, 0x11), (.kgSample, 0x12), (.kgTest, 0x13), (.kgCommit, 0x14), (.kyDecode, 0x18),
   (.kyBasis, 0x19), (.kyEncode, 0x1A), (.sgOracle, 0x20), (.sgBasis, 0x21), (.sgSample, 0x22), (.sgEncode, 0x23),
   (.sgCompact, 0x24), (.vfDecode, 0x30), (.vfOracle, 0x31), (.vfNorm, 0x32), (.vfRecon, 0x33), (.vfRecover, 0x34),
   (.vfMerge, 0x35), (.vfTag, 0x36)]

/-- pos(j) of R69: the bit of its byte that stream bit j takes. -/
def streamPos (o : BitOrder) (j : Nat) : Nat := if o = .msbFirst then 7 - j % 8 else j % 8

/-- The bit of its pattern that a field of width w emits at position j (R70). -/
def emitted (o : BitOrder) (w j : Nat) : Nat := if o = .msbFirst then w - 1 - j else j

/-- EncodeElem (R72): a coded element is the coder's string; an uncoded one is N fields of width w in index order, each value
as its pattern modulo 2^w, the pattern's bits in the order of R70. -/
def elementBits (o : BitOrder) (n : Nat) (coding : Coding) (kind : HuffKind) (w : Nat) (v : List Int) : List Bool :=
  if coding = .huffman then Config.collab.huffEnc kind v w
  else (List.range n).flatMap fun i => (List.range w).map fun j => (coef v i % 2 ^ w).toNat.testBit (emitted o w j)

/-- The private key's wire form: f, g, F, G in this order (R59, R72). -/
def wireSk (s : State) : List Byte :=
  let o := s.build.bitOrder
  toBytes o (elementBits o s.ps.n s.acfg.skCoding .skFg s.ps.fgBits s.sk.f
    ++ elementBits o s.ps.n s.acfg.skCoding .skFg s.ps.fgBits s.sk.g
    ++ elementBits o s.ps.n .none .skFg s.ps.fguBits s.sk.bigF ++ elementBits o s.ps.n .none .skFg s.ps.fguBits s.sk.bigG)

/-- The public key's wire form: h, never coded (R58, R72). -/
def wirePk (s : State) : List Byte :=
  toBytes s.build.bitOrder (elementBits s.build.bitOrder s.ps.n .none .skFg s.ps.qBits s.pk)

/-- A signature's wire form: its elements in order (R56, R57, R72). -/
def wireSig (s : State) (vs : List (List Int)) : List Byte :=
  toBytes s.build.bitOrder (vs.flatMap (elementBits s.build.bitOrder s.ps.n s.acfg.sigCoding .sig s.ps.qBits))

/-- The schema of the private key: f, g, F, G (R105). -/
def keyParts (s : State) : List ElemDesc :=
  [⟨s.acfg.skCoding, .skFg, s.ps.fgBits, true⟩, ⟨s.acfg.skCoding, .skFg, s.ps.fgBits, true⟩,
   ⟨.none, .skFg, s.ps.fguBits, true⟩, ⟨.none, .skFg, s.ps.fguBits, true⟩]

/-- The schema of the public key: h, never coded (R106). -/
def pkParts (s : State) : List ElemDesc := [⟨.none, .skFg, s.ps.qBits, false⟩]

/-- The descriptor of a signature element (R114, R115). -/
def sigPart (s : State) : ElemDesc := ⟨s.acfg.sigCoding, .sig, s.ps.qBits, true⟩

/-- The states in which a command calls a deterministic collaborator (R48): hash/XOF, ring arithmetic (the transform of
PK_NTT among it) and entropy coder, and the Gram-Schmidt of BuildBasis, which R48 does not name (log 4, the model's
choice). -/
def Calls (i : Instr) (s : State) : Prop :=
  (i, s.st) ∈ [(Instr.keygen, Fsm.kgBasis), (.sign, .sgOracle), (.signRec, .sgOracle), (.verify, .vfOracle),
      (.verify, .vfNorm), (.verifyRec, .vfRecon), (.verifyRec, .vfRecover), (.verifyRec, .vfTag)]
    ∨ ((i, s.st) = (.loadSk, .kyBasis) ∧ s.acfg.keep = true)
    ∨ ((i, s.st) ∈ [(Instr.sign, Fsm.sgBasis), (.signRec, .sgBasis)] ∧ s.acfg.keep = false)
    ∨ ((i, s.st) = (.keygen, .kgCommit) ∧ s.build.keepNtt = true)
    ∨ ((i, s.st) = (.loadPk, .kyDecode) ∧ s.build.keepNtt = true
        ∧ ∃ h, unpackWindow Config.collab s .pk (pkParts s) = some [h] ∧ ∀ x ∈ h, x < s.ps.q)
    ∨ ((i, s.st) ∈ [(Instr.loadSk, Fsm.kyDecode), (.storeSk, .kyEncode)] ∧ s.acfg.skCoding = .huffman)
    ∨ ((i, s.st) ∈ [(Instr.sign, Fsm.sgEncode), (.signRec, .sgEncode), (.verify, .vfDecode), (.verifyRec, .vfDecode)]
        ∧ s.acfg.sigCoding = .huffman)

/-- The bit field of width `len` at bit `lo` of a word, as a number (R12). -/
def bitsAt (v : Word) (lo len : Nat) : Nat := v.toNat / 2 ^ lo % 2 ^ len

/-- The plain target c = RO_MAP(oc, msg), in [0, Q)^N (R75). -/
def plainTarget (C : Collab) (s : State) (msg : List Byte) : List Int :=
  (List.range s.ps.n).map fun i => ((C.roMap s.ps s.acfg.oracle msg i % s.ps.q : Nat) : Int)

/-- The tag RO_TAG(oc, msg), in [0, Q)^K (R78). -/
def messageTag (C : Collab) (s : State) (msg : List Byte) : List Int :=
  (List.range s.ps.k).map fun j => ((C.roTag s.ps s.acfg.oracle msg j % s.ps.q : Nat) : Int)

/-- Value i of MIX(oc, t2), in [0, 2^W) with W = Q_BITS - 1 (R78). -/
def mask (C : Collab) (s : State) (t2 : List Int) (i : Nat) : Int :=
  ((C.mix s.ps s.acfg.oracle t2 i % 2 ^ (s.ps.qBits - 1) : Nat) : Int)

/-- The recovery target: m1 + F(t2) modulo Q in the first N-K coefficients, the tag t2 in the other K (R78). -/
def recoveryTarget (C : Collab) (s : State) (msg : List Byte) : List Int :=
  let t2 := messageTag C s msg
  (List.range s.ps.n).map fun i =>
    if i < s.ps.n - s.ps.k then (coef (m1Of s.build.bitOrder s.ps msg) i + mask C s t2 i) % s.ps.q
    else coef t2 (i - (s.ps.n - s.ps.k))

/-- The m1 part of Recover(t), with t2 = t[N-K .. N) (R80). -/
def recoveredM1 (C : Collab) (s : State) (t : List Int) : List Int :=
  let t2 := (List.range s.ps.k).map fun j => coef t (s.ps.n - s.ps.k + j)
  (List.range (s.ps.n - s.ps.k)).map fun i => (coef t i - mask C s t2 i) % s.ps.q

/-- Stream bit j of a byte string, 0 past its end (R69, R76). -/
def streamBit (o : BitOrder) (bytes : List Byte) (j : Nat) : Bool := (bytes.getD (j / 8) 0).getLsbD (streamPos o j)

/-- Entry c of row r of a matrix. -/
def entry (rows : List (List Int)) (r c : Nat) : Int := coef (rows.getD r []) c

/-- The matrix B of R86, [A(g) -A(f); A(G) -A(F)]: 2N rows of 2N entries; row 0 of each half is that half's two vectors, the
second negated; each further row is x times the one above it in both its blocks, the wrapped coefficient going into the lower
coefficients of RING_POLY; and for x^N + 1 that is the shift with wrapped coefficients negated. That a RING_POLY other than
x^N + 1 is monic and given by its lower coefficients, and that the rows are over the integers, not reduced modulo Q, is the
model's choice (log 19). -/
def IsBasisMatrix (rp : RingPoly) (n : Nat) (k : SecretKey) (rows : List (List Int)) : Prop :=
  let low : List Int := match rp with
    | .negacyclic => [1]
    | .monic l => l
  let shift : List Int → Nat → Nat → Int := fun p i c => if i ≤ c then coef p (c - i) else -coef p (c + n - i)
  rows.length = 2 * n ∧ (∀ row ∈ rows, row.length = 2 * n)
    ∧ (∀ c < n, entry rows 0 c = coef k.g c ∧ entry rows 0 (n + c) = -coef k.f c
        ∧ entry rows n c = coef k.bigG c ∧ entry rows n (n + c) = -coef k.bigF c)
    ∧ (∀ i, i + 1 < n → ∀ half ∈ [0, n], ∀ block ∈ [0, n], ∀ c < n,
        entry rows (half + i + 1) (block + c) =
          (if c = 0 then 0 else entry rows (half + i) (block + c - 1))
            - entry rows (half + i) (block + n - 1) * coef low c)
    ∧ (rp = .negacyclic → ∀ i < n, ∀ c < n,
        entry rows i c = shift k.g i c ∧ entry rows i (n + c) = -shift k.f i c
          ∧ entry rows (n + i) c = shift k.bigG i c ∧ entry rows (n + i) (n + c) = -shift k.bigF i c)

/-- The command that waits for the sampler in `t` ends, once an answer `d` has come, as the command in `s` ends with that
answer listed from its start, whatever the counter of the collaborators' turns then is (R48). -/
def ResumesFrom (i : Instr) (s t : State) : Prop :=
  ∀ (d : SampleDraw) (r : List SampleDraw) (k : Nat),
    exec i { t with sampPort := d :: r, turn := k } = exec i { s with sampPort := d :: r, turn := k }

/-- The candidate's basis, as KG_BASIS builds it (R99), the candidate read through its contract (log 5, the model's
choice). -/
def candidateBasis (s : State) (c : Candidate) : Basis := basisFor Config.collab s (contractCandidate s.ps c).key

end Sys2Proof.Claims

open Sys2Proof Sys2Proof.Machine Sys2Proof.Claims

/-! ### Encoding -/

/-- R50: the opcode map, each word written out, decodes to its command. -/
def Obligations.CommandTableDecodes : Prop := ∀ p ∈ commandWords, decode p.1 = .ok p.2

/-- R49 to R51: decoding an encoded command gives it back, a word decodes to a command only if it is that command's word,
and the words that decode are exactly the eleven of R50. -/
def Obligations.DecodeAndEncodeAgree : Prop :=
  (∀ i : Instr, decode (encode i) = .ok i)
    ∧ (∀ (w : Word) (i : Instr), decode w = .ok i → w = encode i)
    ∧ ∀ w : Word, (∃ i, decode w = .ok i) ↔ ∃ p ∈ commandWords, p.1 = w

/-- R51: any other word starts a command as every CMD write does and ends it at once with ILLEGAL_COMMAND; nothing else of
the block changes (`turn` and `silent` are the collaborators': log 4). -/
def Obligations.IllegalWordChangesNothingElse : Prop :=
  ∀ (s : State) (w : Word) (be : ByteEnables), s.status.busy = false → (∀ p ∈ commandWords, p.1 ≠ w) → s.inbox = [] →
    hostEvent (.write 0x010 w be) s = startCommand w s
      ∧ ∃ t, step (startCommand w s) = .next t
        ∧ { t with turn := s.turn, silent := s.silent } = failed .illegalCommand (startCommand w s)

/-! ### Steps -/

/-- R34 to R36: while a command runs and no access lands inside it, the step is the meaning of the command CUR_CMD decodes
to, after the collaborators' turn (log 4, the model's choice). -/
def Obligations.StepRunsTheDecodedCommand : Prop :=
  ∀ (s : State) (i : Instr), s.status.busy = true → decode s.curCmd = .ok i →
    (s.inbox = [] ∨ ∃ e r, s.inbox = ⟨none, e⟩ :: r) → step s = exec i (answered s)

/-- R44 (20_memory.md), R138 (60_exceptions.md): while no command runs the next access takes effect, and with none to come
the block idles (that a step then changes nothing is the model's choice: log 24); while one runs, an access whose moment
has come takes effect, and before that the command makes one transition (log 2, 3, 4). -/
def Obligations.AccessesLandOneAtATime : Prop :=
  ∀ (s : State),
    (s.status.busy = false → s.inbox = [] → step s = .next s)
      ∧ (∀ a r, s.inbox = a :: r → s.status.busy = false ∨ a.during = some 0 →
          step s = .next (hostEvent a.event { s with inbox := r }))
      ∧ (∀ k e r i, s.status.busy = true → s.inbox = ⟨some (k + 1), e⟩ :: r → decode s.curCmd = .ok i →
          step s = advance i (answered { s with inbox := ⟨some k, e⟩ :: r }))

/-- R36: where a command is cut makes no difference. After one of its transitions its meaning answers what it answered
before, and if that transition ended the command, that end is what the meaning answers. -/
def Obligations.CuttingACommandKeepsItsEnd : Prop :=
  ∀ (i : Instr) (s t : State), advance i s = .next t →
    (t.status.busy = true → exec i t = exec i s) ∧ (t.status.busy = false → exec i s = .next t)

/-! ### Reset -/

/-- R139: the reset table, through the registers the host reads and the stores it cannot read; the block then waits. -/
def Obligations.ResetLeavesTheResetTable : Prop :=
  readReg State.reset .id = 0x47505601 ∧ readReg State.reset .caps = capsWord Config.build
    ∧ (∀ r ∈ [Reg.cfg0, .cfg1, .cmd, .status, .ctrl, .msgLen, .sigLen, .pkLen, .skLen, .kgAttempts, .verifiedCnt,
          .unverifiedCnt, .pN, .pQ, .pQBits, .pFgBits, .pFguBits, .pK, .pL1], readReg State.reset r = 0)
    ∧ readReg State.reset .msgCapR = BitVec.ofNat 32 Config.build.msgCap
    ∧ readReg State.reset .sigCapR = BitVec.ofNat 32 Config.build.sigCap
    ∧ readReg State.reset .pkCapR = BitVec.ofNat 32 Config.build.pkCap
    ∧ readReg State.reset .skCapR = BitVec.ofNat 32 Config.build.skCap
    ∧ readReg State.reset .nMaxR = BitVec.ofNat 32 Config.build.nMax
    ∧ State.reset.curCmd = 0 ∧ State.reset.acfg = Acfg.zero
    ∧ (∀ i, coef State.reset.sk.f i = 0 ∧ coef State.reset.sk.g i = 0 ∧ coef State.reset.sk.bigF i = 0
        ∧ coef State.reset.sk.bigG i = 0 ∧ coef State.reset.pk i = 0 ∧ coef State.reset.pkNtt i = 0)
    ∧ State.reset.basis = Basis.zero ∧ State.reset.tbasis = Basis.zero ∧ State.reset.scratch = List.replicate (7 * Config.build.nMax) 0
    ∧ (∀ a, readByte State.reset.mem a = 0) ∧ State.reset.st = .unconfigured ∧ irq State.reset = false
    ∧ step State.reset = .next State.reset

/-- R140: `rst` abandons whatever runs and puts every item at its reset value. What is still to arrive from outside the
block stays (log 23, the model's choice). -/
def Obligations.ResetInputAbandonsTheCommand : Prop :=
  ∀ (s : State) (a : Arrival) (r : List Arrival), s.inbox = a :: r → a.event = .rst →
    s.status.busy = false ∨ a.during = some 0 →
    step s = .next
      { State.powerOn s.build with
        genPort := s.genPort, sampPort := s.sampPort, silent := s.silent, turn := s.turn, inbox := r, rdata := s.rdata }

/-! ### Host port -/

/-- R18: CMD reads 0; a CMD write taken while BUSY = 0 starts a command, with any byte enables; while BUSY = 1 it only sets
OVERRUN. `shown`, the model's copy of the registers for reads inside the command (log 2), is left out. -/
def Obligations.CmdWriteStartsACommand : Prop :=
  ∀ (s : State) (w : Word) (be : ByteEnables),
    busReadData 0x010 s = 0
      ∧ (s.status.busy = false →
          { busWrite 0x010 w be s with shown := s.shown } =
            { s with
              curCmd := w
              st := .dispatch
              status := { s.status with
                busy := true, done := false, err := false, accept := false, reject := false, errcode := .none,
                lastOp := BitVec.ofNat 8 (w.toNat % 256) } })
      ∧ (s.status.busy = true → busWrite 0x010 w be s = { s with status := { s.status with overrun := true } })

/-- R42: while BUSY = 1, writes to CFG0, CFG1, CTRL, the lengths and the windows are dropped and set BUSERR, a window read
returns 0 and sets BUSERR, a CMD write is dropped and sets OVERRUN, and register reads, STATUS writes and accesses to
reserved addresses do what they do while BUSY = 0 (but that STATUS shows BUSY); a register read finds what R36 lets the
host see. Three points are the model's: that a write with no byte enabled sets BUSERR too (log 16), that a CFG0 or CFG1 write
does so when CONFIGURED = 1 as well, where R148 and R17 would have it ignored (log 30), and which registers a read shows
(log 2). -/
def Obligations.BusyInterlockDropsAccesses : Prop :=
  ∀ (s : State) (a : BusAddr) (d : Word) (be : ByteEnables), s.status.busy = true → s.build.wf = true →
    let word := a.toNat / 4 * 4
    (word ∈ [0x008, 0x00C, 0x018, 0x01C, 0x020, 0x024, 0x028] →
        hostEvent (.write a d be) s = { s with status := { s.status with busErr := true } })
      ∧ (∀ win, InWindow s.build win word →
          hostEvent (.write a d be) s = { s with status := { s.status with busErr := true } }
            ∧ hostEvent (.read a) s = { s with status := { s.status with busErr := true }, rdata := 0 })
      ∧ (word = 0x010 → hostEvent (.write a d be) s = { s with status := { s.status with overrun := true } })
      ∧ (word < 0x068 → hostEvent (.read a) s = { s with rdata := busReadData a s }
          ∧ busReadData a (whenIdle (seen s)) = if word = 0x014 then busReadData a s &&& 0xFFFFFFFE else busReadData a s)
      ∧ (word = 0x014 ∨ Reserved word →
          hostEvent (.write a d be) (whenIdle s) = whenIdle (hostEvent (.write a d be) s))
      ∧ (Reserved word → hostEvent (.read a) (whenIdle s) = whenIdle (hostEvent (.read a) s))

/-- R19: what the host reads in STATUS, field by field; bit 11 reads 0; ERRCODE and FSM_STATE are the codes of R120 and R55.
While a command runs the flags are those `seen` names (R36; log 2). -/
def Obligations.StatusShowsItsFields : Prop :=
  ∀ s : State, let w := busReadData 0x014 s
    let f := (seen s).status
    w.getLsbD 0 = s.status.busy ∧ w.getLsbD 1 = s.status.done ∧ w.getLsbD 2 = f.err
      ∧ w.getLsbD 3 = f.accept ∧ w.getLsbD 4 = f.reject ∧ w.getLsbD 5 = f.configured
      ∧ w.getLsbD 6 = f.skValid ∧ w.getLsbD 7 = f.pkValid ∧ w.getLsbD 8 = f.basisValid
      ∧ w.getLsbD 9 = s.status.overrun ∧ w.getLsbD 10 = s.status.busErr ∧ w.getLsbD 11 = false
      ∧ (f.errcode, (w.extractLsb' 12 4).toNat) ∈ errCodes ∧ (s.st, (w.extractLsb' 16 8).toNat) ∈ fsmCodes
      ∧ w.extractLsb' 24 8 = s.status.lastOp

/-- R19: a STATUS write clears exactly those of bits 1, 9 and 10 it writes 1 to in an enabled lane, whether or not BUSY = 1,
and changes nothing else of the state (byte lanes: log 16). -/
def Obligations.StatusWriteClearsWhatItNames : Prop :=
  ∀ (s : State) (d : Word) (be : ByteEnables),
    busReadData 0x014 (busWrite 0x014 d be s) = busReadData 0x014 s &&& ~~~(d &&& laneMask be &&& 0x00000602)
      ∧ { busWrite 0x014 d be s with status := s.status } = s

/-- R15, R16, R22, R23, R24: the read-only registers: what they read, and that writes are ignored. While a command runs, the
verification counters and the P registers are those of its CMD write (R36; log 2). -/
def Obligations.ReadOnlyRegisters : Prop :=
  ∀ (s : State), let r := seen s
    busReadData 0x000 s = 0x47505601
      ∧ (∀ k, (busReadData 0x004 s).getLsbD k =
          ([s.build.keygen, s.build.sign, s.build.verify, s.build.huffman, s.build.hwntt].getD k false))
      ∧ busReadData 0x02C s = s.kgAttempts ∧ busReadData 0x030 s = r.verifiedCnt
      ∧ busReadData 0x034 s = r.unverifiedCnt
      ∧ (r.status.configured = false → ∀ a ∈ [0x038, 0x03C, 0x040, 0x044, 0x048, 0x04C, 0x050],
          busReadData a s = 0)
      ∧ (r.status.configured = true →
          busReadData 0x038 s = BitVec.ofNat 32 r.ps.n ∧ busReadData 0x03C s = BitVec.ofNat 32 r.ps.q
            ∧ busReadData 0x040 s = BitVec.ofNat 32 r.ps.qBits ∧ busReadData 0x044 s = BitVec.ofNat 32 r.ps.fgBits
            ∧ busReadData 0x048 s = BitVec.ofNat 32 r.ps.fguBits ∧ busReadData 0x04C s = BitVec.ofNat 32 r.ps.k
            ∧ busReadData 0x050 s = BitVec.ofNat 32
                (if r.acfg.variant = .recovery then (r.ps.n - r.ps.k) * (r.ps.qBits - 1) else 0))
      ∧ busReadData 0x054 s = BitVec.ofNat 32 s.build.msgCap ∧ busReadData 0x058 s = BitVec.ofNat 32 s.build.sigCap
      ∧ busReadData 0x05C s = BitVec.ofNat 32 s.build.pkCap ∧ busReadData 0x060 s = BitVec.ofNat 32 s.build.skCap
      ∧ busReadData 0x064 s = BitVec.ofNat 32 s.build.nMax
      ∧ ∀ (a : BusAddr) (d : Word) (be : ByteEnables),
          a.toNat < 8 ∨ (0x02C ≤ a.toNat ∧ a.toNat < 0x068) → busWrite a d be s = s

/-- R17, R20, R21, R37: while BUSY = 0 a write to CFG0, CFG1 (unconfigured only), CTRL or a length register changes the bits
of its enabled byte lanes and no other state; CTRL keeps only bit 0. -/
def Obligations.RegisterWritesHonourByteEnables : Prop :=
  ∀ (s : State) (d : Word) (be : ByteEnables), s.status.busy = false →
    (∀ old : Word, ∀ k < 32, (mergeLanes old d be).getLsbD k =
        if be.getLsbD (k / 8) then d.getLsbD k else old.getLsbD k)
      ∧ (s.status.configured = false →
          busWrite 0x008 d be s = { s with cfg0 := mergeLanes s.cfg0 d be }
            ∧ busWrite 0x00C d be s = { s with cfg1 := mergeLanes s.cfg1 d be })
      ∧ (s.status.configured = true → busWrite 0x008 d be s = s ∧ busWrite 0x00C d be s = s)
      ∧ busWrite 0x018 d be s = { s with ie := if be.getLsbD 0 then d.getLsbD 0 else s.ie }
      ∧ busWrite 0x01C d be s = { s with msgLen := mergeLanes s.msgLen d be }
      ∧ busWrite 0x020 d be s = { s with sigLen := mergeLanes s.sigLen d be }
      ∧ busWrite 0x024 d be s = { s with pkLen := mergeLanes s.pkLen d be }
      ∧ busWrite 0x028 d be s = { s with skLen := mergeLanes s.skLen d be }

/-- R37, R39, R40: a window write while BUSY = 0 puts data bits [8i+7:8i] into byte 4j+i for each enabled lane i, leaves every
other byte and all other state, and a read of the word returns its four bytes little-endian. Address bits [1:0] do not
matter. -/
def Obligations.WindowAccessIsLittleEndian : Prop :=
  ∀ (s : State) (a : BusAddr) (d : Word) (be : ByteEnables) (win : Window),
    s.status.busy = false → s.mem.wf → s.build.wf = true → InWindow s.build win (a.toNat / 4 * 4) →
    let w := a.toNat / 4 * 4
    (∀ i < 4, readByte (busWrite a d be s).mem (w + i) =
        if be.getLsbD i then d.extractLsb' (8 * i) 8 else readByte s.mem (w + i))
      ∧ (∀ x, x < w ∨ w + 4 ≤ x → readByte (busWrite a d be s).mem x = readByte s.mem x)
      ∧ { busWrite a d be s with mem := s.mem } = s
      ∧ (∀ i < 4, (busReadData a s).extractLsb' (8 * i) 8 = readByte s.mem (w + i))
      ∧ busReadData a (busWrite a d 0xF s) = d

/-- R38, R39: a reserved address, or one past a window's capacity, reads 0 and ignores writes, with no effect at all, whether
or not a command runs (while one runs, past a capacity, this is the model's choice: log 15). -/
def Obligations.ReservedAddressesAreInert : Prop :=
  ∀ (s : State) (a : BusAddr) (d : Word) (be : ByteEnables), 0x068 ≤ a.toNat →
    (∀ win, ¬InWindow s.build win (a.toNat / 4 * 4)) → s.build.wf = true →
    busReadData a s = 0 ∧ busWrite a d be s = s ∧ hostEvent (.read a) s = { s with rdata := 0 }

/-- R131: irq = STATUS.DONE and CTRL.IE; DONE = 1 at the end of every command, whatever the outcome and the word, and so irq
is IE there; acknowledging, starting a command, masking and reset lower it. -/
def Obligations.InterruptFollowsDoneAndEnable : Prop :=
  ∀ s : State,
    irq s = ((busReadData 0x014 s).getLsbD 1 && (busReadData 0x018 s).getLsbD 0)
      ∧ (∀ i t, exec i s = .next t → t.status.busy = false → t.status.done = true ∧ irq t = s.ie)
      ∧ (∀ e t, decode s.curCmd = .error e → runIllegal s = .next t →
          t.status.busy = false ∧ t.status.done = true ∧ irq t = s.ie)
      ∧ irq (hostEvent (.write 0x014 0x00000602 0xF) s) = false
      ∧ (∀ w be, s.status.busy = false → irq (hostEvent (.write 0x010 w be) s) = false)
      ∧ (s.status.busy = false → irq (hostEvent (.write 0x018 0 0xF) s) = false)
      ∧ irq (hostEvent .rst s) = false

/-- R132, R95: no host access reads a secret store. Two states that differ only in SK_STORE, PK_NTT, BASIS, TBASIS and
SCRATCH answer every access alike and stay so. -/
def Obligations.HostAccessesRevealNoSecret : Prop :=
  ∀ (s s' : State) (e : HostEvent), publicPart s = publicPart s' →
    publicPart (hostEvent e s) = publicPart (hostEvent e s')

/-! ### DISPATCH -/

/-- R122, R126: a failed DISPATCH check ends the command with its code, and nothing but STATUS changes but for the scrubbing
of SCRATCH and TBASIS every end does. -/
def Obligations.DispatchFailureChangesOnlyStatus : Prop :=
  ∀ (i : Instr) (s : State) (e : ErrCode), AtDispatch s → dispatchError i s = some e →
    exec i s = .next (failed e s)

/-- R122: checks 2 to 7, which command each applies to, and that the first that fails decides. -/
def Obligations.FirstFailingCheckDecides : Prop :=
  ∀ (i : Instr) (s : State), dispatchError i s =
    if i = .destroy then none
    else if i = .configure then (if s.status.configured = true then some .illegalCommand else none)
    else if s.status.configured = false then some .nullPointer
    else if (i = .keygen ∧ s.build.keygen = false) ∨ (i ∈ [.sign, .signRec] ∧ s.build.sign = false)
        ∨ (i ∈ [.verify, .verifyRec] ∧ s.build.verify = false) then some .disabledAtCompileTime
    else if (i ∈ [.sign, .verify] ∧ s.acfg.variant = .recovery)
        ∨ (i ∈ [.signRec, .verifyRec] ∧ s.acfg.variant = .plain) then some .outOfBounds
    else if (i ∈ [.sign, .signRec, .storeSk] ∧ s.status.skValid = false)
        ∨ (i ∈ [.verify, .verifyRec, .storePk] ∧ s.status.pkValid = false) then some .nullPointer
    else if (i ∈ [.sign, .signRec, .verify, .verifyRec] ∧ s.build.msgCap < s.msgLen.toNat)
        ∨ (i ∈ [.verify, .verifyRec] ∧ s.build.sigCap < s.sigLen.toNat)
        ∨ (i = .loadPk ∧ s.build.pkCap < s.pkLen.toNat) ∨ (i = .loadSk ∧ s.build.skCap < s.skLen.toNat)
      then some .outOfBounds
    else none

/-! ### CONFIGURE and DESTROY -/

/-- R83: CONFIGURE of an unconfigured block latches the validated configuration, clears the valid bits and the counters and
ends; on a validation error, or of a configured block, it ends with an error and nothing is latched. -/
def Obligations.ConfigureLatchesOrRefuses : Prop :=
  ∀ s : State, AtDispatch s →
    exec .configure s = .next (
      if s.status.configured = true then failed .illegalCommand s
      else match cfgValidate s.build s.cfg0 s.cfg1 with
        | .error e => failed e s
        | .ok a => ended
            { s with
              acfg := a
              status := { s.status with configured := true, skValid := false, pkValid := false, basisValid := false }
              kgAttempts := 0, verifiedCnt := 0, unverifiedCnt := 0 })

/-- R52 to R54, R84: CfgValidate written on the bits of CFG0 and CFG1: the order of its checks, their codes, and the
configuration it returns. -/
def Obligations.CfgValidateFollowsTheTable : Prop :=
  ∀ (b : Build) (v w : Word),
    let var : Variant := if bitsAt v 4 1 = 1 then .recovery else .plain
    let ps := b.pset var (if bitsAt v 0 4 = 1 then 1 else 0)
    let elems := 1 + bitsAt v 4 1
    let acfg : Acfg :=
      { variant := var
        pset := if bitsAt v 0 4 = 1 then 1 else 0
        keep := decide (bitsAt v 5 1 = 1)
        skCoding := if bitsAt v 6 2 = 1 then .huffman else .none
        sigCoding := if bitsAt v 8 2 = 1 then .huffman else .none
        sampPrec := [32, 64, 128, 192, 256].getD (bitsAt v 10 3) 0
        sampImpl := BitVec.ofNat 3 (bitsAt v 13 3)
        reduction := [Reduction.ref, .barrett, .fp, .hw].getD (bitsAt v 16 2) .hw
        gsoPrec := [GsoPrec.g0, .g1, .g2].getD (bitsAt v 18 2) .g2
        hashId := if bitsAt v 20 4 = 0 then ps.hashDefault else bitsAt v 20 4
        dlen := if bitsAt w 0 16 = 0 then ps.digestDefault else bitsAt w 0 16
        omode := if bitsAt v 24 1 = 1 then .xof else .csprng }
    cfgValidate b v w =
      if 1 < bitsAt v 0 4 then .error .outOfBounds
      else if 1 < bitsAt v 6 2 ∨ 1 < bitsAt v 8 2 then .error .outOfBounds
      else if 4 < bitsAt v 10 3 then .error .outOfBounds
      else if bitsAt v 18 2 = 3 then .error .outOfBounds
      else if bitsAt v 25 7 ≠ 0 ∨ bitsAt w 16 16 ≠ 0 then .error .outOfBounds
      else if (bitsAt v 6 2 = 1 ∨ bitsAt v 8 2 = 1) ∧ b.huffman = false then .error .disabledAtCompileTime
      else if bitsAt v 16 2 = 3 ∧ b.hwntt = false then .error .disabledAtCompileTime
      else if b.nMax < ps.n ∨ b.pkCap < (ps.n * ps.qBits + 7) / 8 ∨ b.sigCap < (elems * ps.n * ps.qBits + 7) / 8
          ∨ b.skCap < (2 * ps.n * ps.fgBits + 2 * ps.n * ps.fguBits + 7) / 8 then .error .functionFailure
      else if acfg ∈ b.incompat then .error .outOfBounds
      else .ok acfg

/-- R85, R141: DESTROY reaches the reset state of the instance but for CTRL.IE, OVERRUN, BUSERR, DONE and LAST_OP, whether or
not the block was configured. What is still to arrive from outside the block stays (log 23, the model's choice); the other
outcome bits are 0, as the CMD write left them. -/
def Obligations.DestroyReachesTheResetState : Prop :=
  ∀ s : State, AtDispatch s →
    s.status.err = false → s.status.accept = false → s.status.reject = false → s.status.errcode = .none →
    exec .destroy s = .next
      { State.powerOn s.build with
        ie := s.ie
        status := { Status.zero with
          done := true, overrun := s.status.overrun, busErr := s.status.busErr, lastOp := s.status.lastOp }
        genPort := s.genPort, sampPort := s.sampPort, silent := s.silent, turn := s.turn, inbox := s.inbox
        rdata := s.rdata }

/-! ### KEYGEN -/

/-- R96, R99, R102: KEYGEN whose first candidate's sample passes the test installs the candidate: both stores and their valid
bits, the cached basis and its bit in cache mode, one attempt counted. The answers of the generator and the sampler are read
through their contracts (log 5, 6, the model's choices). -/
def Obligations.KeygenInstallsTheAcceptedCandidate : Prop :=
  ∀ (s : State) (c : Candidate) (s1 s2 : List Int) (g : List GenDraw) (r : List SampleDraw),
    Fits s → AtDispatch s → s.status.configured = true → s.build.keygen = true → s.silent = [] →
    s.genPort = .cand c :: g → s.sampPort = .ok s1 s2 :: r →
    kgAccept s.build s.ps (contractSample s.ps s1) (2 / (candidateBasis s c).invNorm.getD 0 0) = true →
    exec .keygen s = .next (ended
      { s with
        genPort := g
        sampPort := r
        kgAttempts := s.kgAttempts + 1
        sk := (contractCandidate s.ps c).key
        pk := (contractCandidate s.ps c).h
        pkNtt := nttOf Config.collab s (contractCandidate s.ps c).h
        basis := if s.acfg.keep then candidateBasis s c else s.basis
        status := { s.status with skValid := true, pkValid := true, basisValid := s.acfg.keep } })

/-- R96, R99, R100, R101: a failed sample or a failed test restarts the loop: the candidate is dropped and scrubbed, its
attempt counts, the keys stay; in cache mode BASIS holds the dropped candidate's basis and BASIS_VALID is 0. The answers are
read through their contracts (log 5, 6, the model's choices). -/
def Obligations.KeygenRestartsOnARejectedCandidate : Prop :=
  ∀ (s : State) (c : Candidate) (d : SampleDraw) (g : List GenDraw) (r : List SampleDraw),
    Fits s → s.status.busy = true → s.st = .kgGenerate → s.silent = [] → s.genPort = .cand c :: g → s.sampPort = d :: r →
    (match d with
      | .fail => True
      | .ok s1 _ =>
        kgAccept s.build s.ps (contractSample s.ps s1) (2 / (candidateBasis s c).invNorm.getD 0 0) = false) →
    exec .keygen s = exec .keygen
      { s with
        genPort := g
        sampPort := r
        kgAttempts := s.kgAttempts + 1
        scratch := Scratch.zero s.build
        basis := if s.acfg.keep then candidateBasis s c else s.basis
        tbasis := if s.acfg.keep then s.tbasis else Basis.zero
        status := { s.status with basisValid := if s.acfg.keep then false else s.status.basisValid } }

/-- R97, R98, R48: a generator RETRY is tried again and does not count; with no answer KEYGEN holds in KG_GENERATE, and once
one has come it ends as with that answer listed from its start; and a command holds in a state whose call of a deterministic
collaborator gets no answer, and goes on from every other state of its path, one whose call is answered among them. `Calls`
names the calls; that KG_BASIS, KY_BASIS and SG_BASIS wait for Gram-Schmidt is the model's choice (log 4). -/
def Obligations.KeygenRetriesAndWaits : Prop :=
  ∀ (s : State) (g : List GenDraw), s.status.busy = true →
    (s.st = .kgGenerate → s.genPort = .retry :: g → exec .keygen s = exec .keygen { s with genPort := g })
      ∧ (s.st = .kgGenerate → s.genPort = [] → exec .keygen s = .next s)
      ∧ (s.st = .dispatch → s.status.configured = true → s.build.keygen = true → s.genPort = [] →
        ∃ t, exec .keygen s = .next t ∧ t.status.busy = true ∧ t.st = .kgGenerate
          ∧ ∀ (d : GenDraw) (k : Nat),
            exec .keygen { t with genPort := d :: g, turn := k } = exec .keygen { s with genPort := d :: g, turn := k })
      ∧ (∀ i, Calls i s → s.st ∈ s.silent → exec i s = .next s)
      ∧ ∀ i, s.st ∈ commandPath i → ¬(Calls i s ∧ s.st ∈ s.silent) →
        advance i s = .next (transition Config.collab i s)

/-- R101: the exact form of the acceptance test is the rule's: accept unless the sample standard deviation, over the reals,
exceeds N·sigma; with divisor N-1 and N = 1 the variance is taken as 0. -/
def Obligations.AcceptanceIsTheDeviationTest : Prop :=
  ∀ (b : Build) (ps : ParamSet) (v : List Int) (sigma : Rat), 1 ≤ ps.n → 0 ≤ sigma →
    let n : ℝ := ps.n
    let s1 : ℝ := ((sumTo ps.n (coef v) : Int) : ℝ)
    let s2 : ℝ := ((sumTo ps.n (fun i => coef v i ^ 2) : Int) : ℝ)
    let div : ℝ := if b.sdDivisor = .n then n else n - 1
    let var : ℝ := if div = 0 then 0 else (s2 - s1 * s1 / n) / div
    kgAccept b ps v sigma = true ↔ ¬Real.sqrt var > n * (sigma : ℝ)

/-! ### Key import and export -/

/-- R105, R92: LOAD_SK of a window that unpacks installs f, g, F, G and, in cache mode, their basis; otherwise it ends with
OUT_OF_BOUNDS and leaves keys and basis as they were. -/
def Obligations.LoadSkInstallsTheKey : Prop :=
  ∀ s : State, AtDispatch s → s.status.configured = true → s.skLen.toNat ≤ s.build.skCap → s.silent = [] →
    exec .loadSk s = .next (match unpackWindow Config.collab s .sk (keyParts s) with
      | some [f, g, bigF, bigG] => ended
          { s with
            sk := ⟨f, g, bigF, bigG⟩
            basis := if s.acfg.keep then basisFor Config.collab s ⟨f, g, bigF, bigG⟩ else Basis.zero
            status := { s.status with skValid := true, basisValid := s.acfg.keep } }
      | _ => failed .outOfBounds s)

/-- R106: LOAD_PK of a window that unpacks to coefficients below Q installs h; otherwise it ends with OUT_OF_BOUNDS, whether
or not a collaborator answers: the transform is asked for after both checks only. -/
def Obligations.LoadPkInstallsTheKey : Prop :=
  ∀ s : State, AtDispatch s → s.status.configured = true → s.pkLen.toNat ≤ s.build.pkCap →
    (∀ h, unpackWindow Config.collab s .pk (pkParts s) = some [h] → (∀ x ∈ h, x < s.ps.q) → s.silent = [] →
        exec .loadPk s = .next (ended
          { s with pk := h, pkNtt := nttOf Config.collab s h, status := { s.status with pkValid := true } }))
      ∧ ((∀ h, unpackWindow Config.collab s .pk (pkParts s) = some [h] → ∃ x ∈ h, (s.ps.q : Int) ≤ x) →
        exec .loadPk s = .next (failed .outOfBounds s))

/-- R107, R59, R72: STORE_SK writes the key's wire form, zeroes the rest of the SK window and sets SK_LEN; a form longer than SK_CAP
ends with FUNCTION_FAILURE and writes nothing. -/
def Obligations.StoreSkWritesTheWireForm : Prop :=
  ∀ s : State, AtDispatch s → s.status.configured = true → s.status.skValid = true → s.silent = [] →
    exec .storeSk s = .next
      (if s.build.skCap < (wireSk s).length then failed .functionFailure s
        else ended (windowStore .sk (wireSk s) s))

/-- R108, R58, R72: STORE_PK writes the key's wire form, zeroes the rest of the PK window and sets PK_LEN. -/
def Obligations.StorePkWritesTheWireForm : Prop :=
  ∀ s : State, AtDispatch s → s.status.configured = true → s.status.pkValid = true →
    exec .storePk s = .next (ended (windowStore .pk (wirePk s) s))

/-- R13, R39, R147: what a command's window write leaves: the bytes at their addresses, zeros from there to the capacity,
every other address as it was, the length register at the number of bytes, and no other register of the four. -/
def Obligations.WindowStoreWritesAndZeroes : Prop :=
  ∀ (s : State) (win : Window) (bytes : List Byte), s.mem.wf → bytes.length ≤ windowCap s.build win →
    (∀ k < windowCap s.build win, readByte (windowStore win bytes s).mem (windowBase win + k) = bytes.getD k 0)
      ∧ (∀ a, ¬InWindow s.build win a → readByte (windowStore win bytes s).mem a = readByte s.mem a)
      ∧ windowLen (windowStore win bytes s) win = BitVec.ofNat 32 bytes.length
      ∧ ∀ win', win' ≠ win → windowLen (windowStore win bytes s) win' = windowLen s win'

/-- R107, R71 to R73: LOAD_SK of the bytes STORE_SK wrote restores the same SK_STORE, for coding NONE and a key in the ranges
of R26. -/
def Obligations.LoadSkRestoresWhatStoreSkWrote : Prop :=
  ∀ s : State, AtDispatch s → s.status.configured = true → s.status.skValid = true → s.acfg.skCoding = .none →
    s.silent = [] → s.build.wf = true → s.mem.wf → storageFits s.build s.acfg.variant s.ps = true → KeyInRange s.ps s.sk →
    ∃ t u, exec .storeSk s = .next t ∧ exec .loadSk (startCommand (encode .loadSk) t) = .next u
      ∧ u.sk = s.sk ∧ u.status.err = false ∧ u.status.skValid = true

/-! ### Signing -/

/-- R109, R56, R72: SIGN with a sampler answer stores the centred sample's wire form; a failed sample, or a coded signature longer than
SIG_CAP, zeroes the SIG window and SIG_LEN and ends with its code. Nothing else changes. -/
def Obligations.SignStoresTheCentredSample : Prop :=
  ∀ (s : State) (d : SampleDraw) (r : List SampleDraw), SignReady .plain s → s.sampPort = d :: r →
    exec .sign s = .next (match d with
      | .fail => failed .samplingFailure (windowStore .sig [] { s with sampPort := r })
      | .ok s1 _ =>
        let bytes := wireSig s [center s.ps s1]
        if s.build.sigCap < bytes.length then failed .functionFailure (windowStore .sig [] { s with sampPort := r })
        else ended (windowStore .sig bytes { s with sampPort := r }))

/-- R110, R57, R72: SIGN_REC with a sampler answer stores both centred vectors' wire form and then rewrites the message to m2; a
failure leaves the message. -/
def Obligations.SignRecStoresAndCompacts : Prop :=
  ∀ (s : State) (d : SampleDraw) (r : List SampleDraw), SignReady .recovery s → s.build.wf = true → s.mem.wf →
    s.sampPort = d :: r →
    exec .signRec s = .next (match d with
      | .fail => failed .samplingFailure (windowStore .sig [] { s with sampPort := r })
      | .ok s1 s2 =>
        let bytes := wireSig s [center s.ps s1, center s.ps s2]
        if s.build.sigCap < bytes.length then failed .functionFailure (windowStore .sig [] { s with sampPort := r })
        else ended (windowStore .msg (compact s.build.bitOrder s.ps (message s))
          (windowStore .sig bytes { s with sampPort := r })))

/-- R48, R75, R78, R86, R90, R94, R99, R100, R109, R110: without a sampler answer a signing command holds in SG_SAMPLE and
KEYGEN in KG_SAMPLE, asking for a sample with the basis of the key (cached or built now, the same triple under the invariant
of R29), the target and the width of its rule; once an answer has come the command ends as with that answer listed from its
start. The candidate of KEYGEN is read through its contract (log 5, the model's choice). In the default layout the basis'
matrix B is that of R86; for a RING_POLY other than x^N + 1, its form and the rows over the integers are the model's choice
(log 19). -/
def Obligations.SamplerIsAskedAsTheRulesSay : Prop :=
  (∀ s : State, BasisInv s → s.sampPort = [] →
    (SignReady .plain s → ∃ t, exec .sign s = .next t ∧ t.status.busy = true ∧ t.st = .sgSample
        ∧ samplerRequest t = some
            { basis := basisFor Config.collab s s.sk, target := plainTarget Config.collab s (message s),
              sigma := s.ps.signSigma, two := false, prec := s.acfg.sampPrec, impl := s.acfg.sampImpl }
        ∧ ResumesFrom .sign s t)
      ∧ (SignReady .recovery s → ∃ t, exec .signRec s = .next t ∧ t.status.busy = true ∧ t.st = .sgSample
        ∧ samplerRequest t = some
            { basis := basisFor Config.collab s s.sk, target := recoveryTarget Config.collab s (message s),
              sigma := s.ps.signSigma, two := true, prec := s.acfg.sampPrec, impl := s.acfg.sampImpl }
        ∧ ResumesFrom .signRec s t)
      ∧ (∀ c g, Fits s → AtDispatch s → s.status.configured = true → s.build.keygen = true → s.silent = [] →
        s.genPort = .cand c :: g → ∃ t, exec .keygen s = .next t ∧ t.status.busy = true ∧ t.st = .kgSample
          ∧ samplerRequest t = some
            { basis := candidateBasis s c, target := List.replicate s.ps.n ((s.ps.q / 2 : Nat) : Int),
              sigma := 2 / (candidateBasis s c).invNorm.getD 0 0, two := false, prec := s.acfg.sampPrec,
              impl := s.acfg.sampImpl }
          ∧ ResumesFrom .keygen s t))
    ∧ ∀ (s : State) (k : SecretKey), s.build.basisLayout = .ntru → 1 ≤ s.ps.n →
      IsBasisMatrix s.build.ringPoly s.ps.n k (basisFor Config.collab s k).rows

/-! ### Verification -/

/-- R114: VERIFY accepts exactly when the SIG window decodes to s1 and (s1, center(c - h·s1)) is below the norm bound;
otherwise it rejects. It writes no window, length or key. -/
def Obligations.VerifyDecidesByTheNorm : Prop :=
  ∀ s : State, VerifyReady .plain s →
    exec .verify s = .next (match unpackWindow Config.collab s .sig [sigPart s] with
      | some [s1] =>
        let c := plainTarget Config.collab s (message s)
        let s2 := center s.ps (vecSub s.ps.n c (ringMul s.build.ringPoly s.ps s.pk s1))
        if sqNorm s.ps.n s1 s2 < s.ps.bdSq then accepted s else rejected s
      | _ => rejected s)

/-- R115, R117: VERIFY_REC: decode, norm, reconstruction, coefficient check, length check, merge and tag, in this order; on
acceptance the full message is written, on any rejection the MSG window and MSG_LEN are zeroed. -/
def Obligations.VerifyRecDecidesInOrder : Prop :=
  ∀ s : State, VerifyReady .recovery s →
    exec .verifyRec s = .next (
      let rej := rejected (windowStore .msg [] s)
      match unpackWindow Config.collab s .sig [sigPart s, sigPart s] with
      | some [s1, s2] =>
        let t := normalize s.ps (vecAdd s.ps.n (ringMul s.build.ringPoly s.ps s.pk s1) s2)
        let m1 := recoveredM1 Config.collab s t
        let mm := merge s.build.bitOrder s.ps m1 (message s)
        if ¬sqNorm s.ps.n s1 s2 < s.ps.bdSq then rej
        else if ¬∀ i < s.ps.n - s.ps.k, coef m1 i < 2 ^ (s.ps.qBits - 1) then rej
        else if s.build.msgCap < (s.ps.n - s.ps.k) * (s.ps.qBits - 1) / 8 + s.msgLen.toNat then rej
        else if ∀ j < s.ps.k, coef (messageTag Config.collab s mm) j = coef t (s.ps.n - s.ps.k + j)
          then accepted (windowStore .msg mm s)
        else rej
      | _ => rej)

/-- R118: the state after a rejection does not depend on which check failed. -/
def Obligations.RejectionsAreUniform : Prop :=
  ∀ s t : State, AtDispatch s → s.status.reject = false → t.status.reject = true →
    (exec .verify s = .next t → t = rejected s)
      ∧ (exec .verifyRec s = .next t → t = rejected (windowStore .msg [] s))

/-- R119, R67: a decoded signature at or above the norm bound is rejected, whatever the coefficients, the lengths and the
tag would give. -/
def Obligations.NormAtTheBoundIsRejected : Prop :=
  ∀ (s : State) (s1 s2 : List Int),
    (VerifyReady .recovery s → s.ps.bdSq ≤ sqNorm s.ps.n s1 s2 →
        unpackWindow Config.collab s .sig [sigPart s, sigPart s] = some [s1, s2] →
        exec .verifyRec s = .next (rejected (windowStore .msg [] s)))
      ∧ (VerifyReady .plain s → unpackWindow Config.collab s .sig [sigPart s] = some [s1] →
        s2 = center s.ps (vecSub s.ps.n (plainTarget Config.collab s (message s))
          (ringMul s.build.ringPoly s.ps s.pk s1)) →
        s.ps.bdSq ≤ sqNorm s.ps.n s1 s2 → exec .verify s = .next (rejected s))

/-! ### Helpers -/

/-- R62, R63: the value of center at each coefficient; it lies in the symmetric range, is idempotent, changes values only by
multiples of Q, and fits a signed Q_BITS field. -/
def Obligations.CentringIsSymmetricAndFits : Prop :=
  ∀ (ps : ParamSet) (x : List Int) (v : Variant), ps.wf v = true → ∀ i < ps.n,
    coef (center ps x) i = (if coef x i % ps.q > ((ps.q / 2 : Nat) : Int) then coef x i % ps.q - ps.q else coef x i % ps.q)
      ∧ -(((ps.q - 1) / 2 : Nat) : Int) ≤ coef (center ps x) i ∧ coef (center ps x) i ≤ ((ps.q / 2 : Nat) : Int)
      ∧ coef (center ps x) i % ps.q = coef x i % ps.q
      ∧ center ps (center ps x) = center ps x
      ∧ -(2 ^ (ps.qBits - 1) : Int) ≤ coef (center ps x) i ∧ coef (center ps x) i ≤ 2 ^ (ps.qBits - 1) - 1

/-- R64: coefficient i of the ring product for x^N + 1, as the rule's loop gives it, in [0, Q); and that loop is the product
of polynomials modulo x^N + 1, as the general reduction computes it. The form of that reduction, by a monic polynomial's
lower coefficients, is the model's choice (log 19). -/
def Obligations.NegacyclicLoopIsTheQuotientProduct : Prop :=
  ∀ (ps : ParamSet) (a b : List Int),
    (ringMul .negacyclic ps a b).length = ps.n
      ∧ (∀ i < ps.n, coef (ringMul .negacyclic ps a b) i =
          (∑ j ∈ Finset.range ps.n, if j ≤ i then coef a j * coef b (i - j) else -(coef a j * coef b (i + ps.n - j))) % ps.q)
      ∧ ringMul .negacyclic ps a b = ringMul (.monic [1]) ps a b

/-- R66, R67, R6: SqNorm is the sum of the squares of both vectors' coefficients; NormOK is SqNorm < BD_SQ, which for
BD_SQ = ceil(bd^2) is the strict Euclidean bound sqrt(SqNorm) < bd; and a set that meets its constraints has BD for such a
bd. -/
def Obligations.NormOkIsTheEuclideanBound : Prop :=
  ∀ (ps : ParamSet) (u v : List Int),
    sqNorm ps.n u v = ∑ i ∈ Finset.range ps.n, coef u i ^ 2 + ∑ i ∈ Finset.range ps.n, coef v i ^ 2
      ∧ (normOk ps u v = true ↔ sqNorm ps.n u v < ps.bdSq)
      ∧ (∀ bd : ℝ, 0 ≤ bd → ps.bdSq = ⌈bd ^ 2⌉₊ →
          (normOk ps u v = true ↔ Real.sqrt ((sqNorm ps.n u v : Int) : ℝ) < bd))
      ∧ ∀ var : Variant, ps.wf var = true →
          (normOk ps u v = true ↔ Real.sqrt ((sqNorm ps.n u v : Int) : ℝ) < (ps.bd : ℝ))

/-- R69, R70, R71, R73: the place of every stream bit in its byte and of every field bit in the stream, for each bit order;
reading back gives what was written; and Unpack without Huffman coding: it answers exactly when the length is
ceil(total/8) and the pad bits are 0, and each value is that of its field. -/
def Obligations.BitStreamsReadBack : Prop :=
  ∀ (o : BitOrder) (w u : Nat) (pre post : List Bool) (bytes : List Byte),
    (bitsOf o bytes).length = 8 * bytes.length
      ∧ (∀ j < 8 * bytes.length, (bitsOf o bytes).getD j false = (bytes.getD (j / 8) 0).getLsbD (streamPos o j))
      ∧ (toBytes o pre).length = (pre.length + 7) / 8
      ∧ (∀ j < pre.length, ((toBytes o pre).getD (j / 8) 0).getLsbD (streamPos o j) = pre.getD j false)
      ∧ (fieldBits o w u).length = w
      ∧ (∀ j < w, (fieldBits o w u).getD j false = u.testBit (emitted o w j))
      ∧ (∀ p, readField o w pre p < 2 ^ w
          ∧ ∀ j < w, (readField o w pre p).testBit (emitted o w j) = pre.getD (p + j) false)
      ∧ toBytes o (bitsOf o bytes) = bytes
      ∧ (∀ j, pre.length ≤ j → (bitsOf o (toBytes o pre)).getD j false = false)
      ∧ (u < 2 ^ w → readField o w (pre ++ fieldBits o w u ++ post) pre.length = u)
      ∧ (∀ x : Int, 1 ≤ w → -(2 ^ (w - 1) : Int) ≤ x → x < 2 ^ (w - 1) →
          patternOf w x < 2 ^ w ∧ signExtend w (patternOf w x) = x)
      ∧ ∀ (C : Collab) (n : Nat) (schema : List ElemDesc), (∀ e ∈ schema, e.coding = .none) →
          let total := n * (schema.map ElemDesc.w).sum
          ((unpack C o n bytes schema).isSome = true ↔
              bytes.length = (total + 7) / 8
                ∧ ∀ j, total ≤ j → j < 8 * bytes.length → (bitsOf o bytes).getD j false = false)
            ∧ ∀ vs, unpack C o n bytes schema = some vs → vs.length = schema.length
              ∧ ∀ k e v, schema[k]? = some e → vs[k]? = some v → v.length = n ∧ ∀ i < n,
                  let x := readField o e.w (bitsOf o bytes) (n * ((schema.take k).map ElemDesc.w).sum + i * e.w)
                  coef v i = if e.signed = true ∧ 2 ^ e.w ≤ 2 * x then (x : Int) - 2 ^ e.w else (x : Int)

/-- R76, R77, R81, R82: every bit of m1, of m2 and of a merged message, in its place; and merging the m1 fields and the m2
bytes of a message gives the message back when it has at least A1 bytes, and the message followed by zero bytes up to A1 when
it is shorter. -/
def Obligations.MergeUndoesCompact : Prop :=
  ∀ (o : BitOrder) (ps : ParamSet) (msg m2 : List Byte) (m1 : List Int),
    let w := ps.qBits - 1
    let l1 := (ps.n - ps.k) * w
    ((m1Of o ps msg).length = ps.n - ps.k
        ∧ ∀ i < ps.n - ps.k, 0 ≤ coef (m1Of o ps msg) i ∧ coef (m1Of o ps msg) i < 2 ^ w
          ∧ ∀ j < w, (coef (m1Of o ps msg) i).toNat.testBit (emitted o w j) = streamBit o msg (i * w + j))
      ∧ ((compact o ps msg).length = (if 8 * msg.length ≤ l1 then 0 else (8 * msg.length - l1 + 7) / 8)
        ∧ (l1 ≤ 8 * msg.length → (compact o ps msg).length = msg.length - l1 / 8)
        ∧ ∀ j < 8 * (compact o ps msg).length, streamBit o (compact o ps msg) j = streamBit o msg (l1 + j))
      ∧ ((merge o ps m1 m2).length = l1 / 8 + m2.length
        ∧ ∀ j < 8 * (l1 / 8 + m2.length), streamBit o (merge o ps m1 m2) j =
            if j < l1 then (coef m1 (j / w) % 2 ^ w).toNat.testBit (emitted o w (j % w)) else streamBit o m2 (j - l1))
      ∧ merge o ps (m1Of o ps msg) (compact o ps msg) = msg ++ List.replicate (l1 / 8 - msg.length) 0

/-- R113: a SIGN whose sampler answer meets the contract h·s1 + s2 ≡ c (mod Q) for some s2 that is short with it is accepted
by VERIFY of the same message, for coding NONE and whatever the collaborators are. -/
def Obligations.PlainSignatureIsAccepted : Prop :=
  ∀ (C : Collab) (s : State) (s1 s2 : List Int) (x : List Int) (r : List SampleDraw),
    SignReady .plain s → s.build.verify = true → s.status.pkValid = true → s.acfg.sigCoding = .none →
    s.build.wf = true → s.mem.wf → storageFits s.build s.acfg.variant s.ps = true → s.sampPort = .ok s1 x :: r →
    normalize s.ps (vecAdd s.ps.n (ringMul s.build.ringPoly s.ps s.pk s1) s2)
      = plainTarget C s (message s) →
    sqNorm s.ps.n (center s.ps s1) (center s.ps s2) < s.ps.bdSq →
    ∃ t u, signWith C s = .next t ∧ verifyWith C (startCommand (encode .verify) t) = .next u
      ∧ u.status.accept = true ∧ u.verifiedCnt = s.verifiedCnt + 1

/-- R113, R82: the same for SIGN_REC and VERIFY_REC, which also returns the original message when it has at least A1
bytes. -/
def Obligations.RecoverySignatureReturnsTheMessage : Prop :=
  ∀ (C : Collab) (s : State) (s1 s2 : List Int) (r : List SampleDraw),
    SignReady .recovery s → s.build.verify = true → s.status.pkValid = true → s.acfg.sigCoding = .none →
    s.build.wf = true → s.mem.wf → storageFits s.build s.acfg.variant s.ps = true → s.sampPort = .ok s1 s2 :: r →
    normalize s.ps (vecAdd s.ps.n (ringMul s.build.ringPoly s.ps s.pk s1) s2)
      = recoveryTarget C s (message s) →
    sqNorm s.ps.n (center s.ps s1) (center s.ps s2) < s.ps.bdSq →
    (s.ps.n - s.ps.k) * (s.ps.qBits - 1) / 8 ≤ s.msgLen.toNat →
    ∃ t u, signRecWith C s = .next t ∧ verifyRecWith C (startCommand (encode .verifyRec) t) = .next u
      ∧ u.status.accept = true ∧ u.msgLen = s.msgLen ∧ message u = message s

/-! ### Frames -/

/-- R126, R145, R147: the memory frame. A command other than DESTROY leaves every byte outside the windows it writes as it
was. -/
def Obligations.CommandsWriteOnlyTheirWindows : Prop :=
  ∀ (i : Instr) (s t : State) (a : Nat), AtDispatch s → ConfigInv s → s.mem.wf → i ≠ .destroy →
    exec i s = .next t → (∀ win ∈ writtenWindows i, ¬InWindow s.build win a) →
    readByte t.mem a = readByte s.mem a

/-- The register frame: what each command leaves alone, among the registers, stores, STATUS bits and ports (the "Status
written" entries of R83 to R115). DESTROY clears CUR_CMD (R85, R141); that the other commands keep it, and what happens to
the ports, the arrivals and the last read word, is the model's choice (log 2, 3, 4, 23, 27). -/
def Obligations.CommandsChangeOnlyTheirRegisters : Prop :=
  ∀ (i : Instr) (s t : State), exec i s = .next t →
    (t.build = s.build ∧ t.ie = s.ie ∧ t.inbox = s.inbox ∧ t.rdata = s.rdata ∧ t.silent = s.silent ∧ t.turn = s.turn
        ∧ (t.status.busy = true → t.shown = s.shown) ∧ t.status.overrun = s.status.overrun
        ∧ t.status.busErr = s.status.busErr ∧ t.status.lastOp = s.status.lastOp)
      ∧ (i ≠ .destroy → t.cfg0 = s.cfg0 ∧ t.cfg1 = s.cfg1 ∧ t.curCmd = s.curCmd)
      ∧ (i ∉ [.destroy, .configure] → t.acfg = s.acfg ∧ t.status.configured = s.status.configured)
      ∧ (i ∉ [.destroy, .signRec, .verifyRec] → t.msgLen = s.msgLen)
      ∧ (i ∉ [.destroy, .sign, .signRec] → t.sigLen = s.sigLen)
      ∧ (i ∉ [.destroy, .storePk] → t.pkLen = s.pkLen)
      ∧ (i ∉ [.destroy, .storeSk] → t.skLen = s.skLen)
      ∧ (i ∉ [.destroy, .configure, .keygen] → t.kgAttempts = s.kgAttempts)
      ∧ (i ∉ [.destroy, .configure, .verify, .verifyRec] →
          t.verifiedCnt = s.verifiedCnt ∧ t.unverifiedCnt = s.unverifiedCnt ∧ t.status.accept = s.status.accept
            ∧ t.status.reject = s.status.reject)
      ∧ (i ∉ [.destroy, .keygen, .loadSk] → t.sk = s.sk ∧ t.basis = s.basis)
      ∧ (i ∉ [.destroy, .configure, .keygen, .loadSk] →
          t.status.skValid = s.status.skValid ∧ t.status.basisValid = s.status.basisValid)
      ∧ (i ∉ [.destroy, .keygen, .loadPk] → t.pk = s.pk ∧ t.pkNtt = s.pkNtt)
      ∧ (i ∉ [.destroy, .configure, .keygen, .loadPk] → t.status.pkValid = s.status.pkValid)
      ∧ (i ≠ .keygen → t.genPort = s.genPort)
      ∧ (i ∉ [.keygen, .sign, .signRec] → t.sampPort = s.sampPort)

/-- R132: the private key leaves the block only through STORE_SK. For every other command, two states that differ only in the
secret stores end in states that differ only there. The sampler's answers are inputs here (log 4), so what a sampler may
leak through its samples is not covered. -/
def Obligations.OnlyStoreSkRevealsTheKey : Prop :=
  ∀ (i : Instr) (s s' t t' : State), i ≠ .storeSk → AtDispatch s → publicPart s = publicPart s' →
    exec i s = .next t → exec i s' = .next t' → publicPart t = publicPart t'

/-! ### Invariants -/

/-- The window bytes keep their canonical form (log 14). -/
def Obligations.StepKeepsMemoryCanonical : Prop :=
  ∀ s t : State, s.mem.wf → step s = .next t → t.mem.wf

/-- R34, R55: every step keeps `st` where R34 says it is. -/
def Obligations.StepKeepsControlOnPath : Prop :=
  ∀ s t : State, ControlInv s → step s = .next t → ControlInv t

/-- R120, R124: the block never stops: where `st` is on its path a step answers a next state. -/
def Obligations.TheBlockNeverStops : Prop := ∀ s : State, ControlInv s → StepsOn s

/-- R30, R31, R124: SCRATCH stays 7·N_MAX words of SCRATCH_W bits, and SCRATCH and TBASIS are zero at every command boundary;
a vector of at most N_MAX values that fit a word is read back from its place as it was put there, and the other places
stay as they were (which place holds which vector is the model's choice: log 13). -/
def Obligations.StepKeepsScratchScrubbed : Prop :=
  (∀ s t : State, ScrubInv s → step s = .next t → ScrubInv t)
    ∧ (∀ s : State, ScrubInv s → s.status.busy = false → ∀ k, s.scratch.getD k 0 = 0)
    ∧ ∀ (s : State) (slot slot' : Slot) (v : List Int), v.length ≤ s.build.nMax → 1 ≤ s.build.scratchW →
        (∀ x ∈ v, -(2 ^ (s.build.scratchW - 1) : Int) ≤ x ∧ x < 2 ^ (s.build.scratchW - 1)) →
        scratchVec (scratchPut slot v s) slot v.length = v
          ∧ (slotIndex slot' ≠ slotIndex slot →
            ∀ len, scratchVec (scratchPut slot v s) slot' len = scratchVec s slot' len)

/-- R19, R120: the outcome bits stay consistent with ERRCODE, and at most one of ERR, ACCEPT and REJECT is 1. -/
def Obligations.StepKeepsOutcomesConsistent : Prop :=
  (∀ s t : State, OutcomeInv s → step s = .next t → OutcomeInv t)
    ∧ ∀ s : State, OutcomeInv s →
        ¬(s.status.err = true ∧ s.status.accept = true) ∧ ¬(s.status.err = true ∧ s.status.reject = true)
          ∧ ¬(s.status.accept = true ∧ s.status.reject = true)

/-- R29, R90, R96: the cached basis is only ever that of the installed private key; at a command boundary BASIS_VALID = 1
implies cache mode, a valid key and BASIS = BuildBasis(SK_STORE), and in cache mode a valid key has its basis; from
KG_BASIS to the commit BASIS_VALID is 0 in cache mode. -/
def Obligations.StepKeepsTheBasisOfTheKey : Prop :=
  (∀ s t : State, BasisInv s → step s = .next t → BasisInv t)
    ∧ ∀ s : State, BasisInv s →
        (s.status.busy = false → s.status.basisValid = true →
          s.acfg.keep = true ∧ s.status.skValid = true
            ∧ s.basis = buildBasis Config.collab s.build s.ps s.acfg.gsoPrec s.sk)
          ∧ (s.status.busy = false → s.acfg.keep = true → s.status.skValid = true → s.status.basisValid = true)
          ∧ (s.status.busy = true → s.acfg.keep = true →
            s.st = .kgBasis ∨ s.st = .kgSample ∨ s.st = .kgTest ∨ s.st = .kgCommit → s.status.basisValid = false)

/-- R26, R27: the key stores hold values in their ranges whenever they are valid. -/
def Obligations.StepKeepsKeysInRange : Prop :=
  ∀ s t : State, KeyInv s → step s = .next t → KeyInv t

/-- R25, R84, R85: the configuration stays one whose storage the build has, and an unconfigured block holds none. -/
def Obligations.StepKeepsTheConfiguration : Prop :=
  ∀ s t : State, ConfigInv s → step s = .next t → ConfigInv t ∧ t.build = s.build

/-- Every invariant holds right after reset (R139). -/
def Obligations.ResetMeetsTheInvariants : Prop :=
  State.reset.mem.wf ∧ ControlInv State.reset ∧ ScrubInv State.reset ∧ OutcomeInv State.reset ∧ BasisInv State.reset
    ∧ KeyInv State.reset ∧ ConfigInv State.reset

/-! ### What a running command shows -/

/-- R36, R137: what a program can observe of a running command is STATUS.FSM_STATE and KG_ATTEMPTS. A transition after which
the command still runs changes no other bit of any register read, but for BASIS_VALID while KEYGEN runs (C9; log 2); and
the CMD write that starts a command changes no register read but STATUS. -/
def Obligations.RunningCommandShowsOnlyItsProgress : Prop :=
  ∀ (s t : State) (a : BusAddr), a.toNat < 0x068 → let word := a.toNat / 4 * 4
    (∀ i, decode s.curCmd = .ok i → advance i s = .next t → t.status.busy = true →
        (word ∉ [0x014, 0x02C] → busReadData a t = busReadData a s)
          ∧ (word = 0x014 → i ≠ .keygen → busReadData a t &&& 0xFF00FFFF = busReadData a s &&& 0xFF00FFFF)
          ∧ (word = 0x014 → busReadData a t &&& 0xFF00FEFF = busReadData a s &&& 0xFF00FEFF)
          ∧ (word = 0x02C → i ∉ [.keygen, .configure, .destroy] → busReadData a t = busReadData a s))
      ∧ (∀ e, decode s.curCmd = .error e → advanceIllegal s = .next t → t.status.busy = true →
        (word ≠ 0x014 → busReadData a t = busReadData a s)
          ∧ (word = 0x014 → busReadData a t &&& 0xFF00FFFF = busReadData a s &&& 0xFF00FFFF))
      ∧ ∀ (w : Word) (be : ByteEnables), s.status.busy = false → word ≠ 0x014 →
          busReadData a (busWrite 0x010 w be s) = busReadData a s
end

