-- ==== Sys2Proof/Laws/Bits.lean ====
section
/-! SUPPORT. Vectors coefficient by coefficient, and bit streams bit by bit: what each helper of 40_helpers.md gives at one
position, and how long its result is. -/

namespace Sys2Proof.Machine

/-! ### Vectors -/

/-- Coefficient i of a vector built by `vec`. -/
theorem coef_vec (n : Nat) (f : Nat → Int) (i : Nat) : coef (vec n f) i = if i < n then f i else 0 := by
  unfold coef vec
  by_cases h : i < n
  · simp [h]
  · rw [if_neg h, List.getD_eq_default]
    simpa using h

/-- Two vectors with the same coefficients are the same. -/
theorem vec_congr {n : Nat} {f g : Nat → Int} (h : ∀ i < n, f i = g i) : vec n f = vec n g :=
  List.map_congr_left fun i hi => h i (List.mem_range.1 hi)

/-- Two sums with the same terms are the same. -/
theorem sumTo_congr {n : Nat} {f g : Nat → Int} (h : ∀ i < n, f i = g i) : sumTo n f = sumTo n g :=
  congrArg List.sum (List.map_congr_left fun i hi => h i (List.mem_range.1 hi))

theorem sumTo_sub (n : Nat) (f g : Nat → Int) : sumTo n f - sumTo n g = sumTo n fun i => f i - g i := by
  unfold sumTo
  induction n with
  | zero => simp
  | succ n ih =>
    simp only [List.range_succ, List.map_append, List.sum_append, ← ih]
    simp
    ring

/-! ### Lengths -/

@[simp] theorem toBytes_length (o : BitOrder) (b : List Bool) : (toBytes o b).length = byteCount b.length := by
  simp [toBytes]

@[simp] theorem fieldBits_length (o : BitOrder) (w u : Nat) : (fieldBits o w u).length = w := by
  cases o <;> simp [fieldBits]

@[simp] theorem bitsOf_length (o : BitOrder) (b : List Byte) : (bitsOf o b).length = 8 * b.length := by
  induction b with
  | nil => rfl
  | cons x r ih =>
    simp [bitsOf] at *
    omega

/-- An uncoded element has one field a coefficient (R72). -/
theorem encodeElem_length (C : Collab) (o : BitOrder) (n : Nat) (e : ElemDesc) (v : List Int) (h : e.coding = .none) :
    (encodeElem C o n e v).length = n * e.w := by
  unfold encodeElem
  rw [h]
  simp [List.length_flatMap]

@[simp] theorem message_length (s : State) : (message s).length = s.msgLen.toNat := by simp [message, windowRead, readBytes]

theorem compact_length (o : BitOrder) (ps : ParamSet) (m : List Byte) :
    (compact o ps m).length = m.length - a1Of ps := by
  unfold compact a1Of
  split
  · simp
    omega
  · simp [byteCount]
    omega

theorem merge_length (o : BitOrder) (ps : ParamSet) (m1 : List Int) (m : List Byte) :
    (merge o ps m1 m).length = a1Of ps + m.length := by
  simp [merge, byteCount]
  omega

/-! ### Bits -/

/-- Bit p of a byte built by `byteOf`. -/
theorem byteOf_bit (f : Nat → Bool) (p : Nat) : (byteOf f).getLsbD p = (decide (p < 8) && f p) := by
  unfold byteOf
  by_cases h : p < 8
  · simp only [BitVec.getLsbD_append]
    interval_cases p <;> simp
  · simp only [h, decide_false, Bool.false_and]
    exact BitVec.getLsbD_of_ge _ _ (by omega)

theorem bitPos_lt (o : BitOrder) (p : Nat) : bitPos o p < 8 := by
  cases o <;> simp only [bitPos] <;> omega

theorem bitPos_bitPos (o : BitOrder) (p : Nat) : bitPos o (bitPos o p) = p % 8 := by
  cases o <;> simp only [bitPos] <;> omega

theorem bitPos_mod (o : BitOrder) (i p : Nat) : bitPos o (8 * i + p) = bitPos o p := by
  cases o <;> simp [bitPos]

/-- Stream bit j of a byte string (R69). -/
theorem bitsOf_get (o : BitOrder) (bytes : List Byte) (j : Nat) :
    (bitsOf o bytes).getD j false = (bytes.getD (j / 8) 0).getLsbD (bitPos o j) := by
  induction bytes generalizing j with
  | nil => simp [bitsOf]
  | cons b r ih =>
    have e : bitsOf o (b :: r) = ((List.range 8).map fun j => b.getLsbD (bitPos o j)) ++ bitsOf o r := rfl
    rw [e]
    by_cases h : j < 8
    · rw [List.getD_append _ _ _ _ (by simpa using h), List.getD_eq_getElem _ _ (by simpa using h)]
      simp [show j / 8 = 0 by omega]
    · rw [List.getD_append_right _ _ _ _ (by simpa using h)]
      have h1 : j / 8 = (j - 8) / 8 + 1 := by omega
      have h2 : bitPos o j = bitPos o (j - 8) := by cases o <;> simp only [bitPos] <;> omega
      rw [h1, h2, List.getD_cons_succ, ← ih]
      simp

/-- Byte i of a bit string (R69). -/
theorem toBytes_get (o : BitOrder) (b : List Bool) (i : Nat) :
    (toBytes o b).getD i 0 = if i < byteCount b.length then byteOf fun p => b.getD (8 * i + bitPos o p) false else 0 := by
  unfold toBytes
  by_cases h : i < byteCount b.length
  · rw [if_pos h, List.getD_eq_getElem _ _ (by simpa using h)]
    simp
  · rw [if_neg h, List.getD_eq_default _ _ (by simpa using h)]

/-- Bit j of the pattern a list of bits stands for (R70). -/
theorem fieldValue_bit (o : BitOrder) (l : List Bool) (j : Nat) :
    (fieldValue o l).testBit j = match o with
      | .lsbFirst => l.getD j false
      | .msbFirst => l.reverse.getD j false := by
  have key : ∀ (l : List Bool) (j : Nat),
      (l.foldr (fun (x : Bool) (acc : Nat) => 2 * acc + x.toNat) 0).testBit j = l.getD j false := by
    intro l
    induction l with
    | nil => intro j; simp
    | cons b r ih =>
      intro j
      rw [List.foldr_cons]
      cases j with
      | zero => cases b <;> simp [Nat.testBit_zero]
      | succ j =>
        rw [Nat.testBit_succ, List.getD_cons_succ, ← ih j]
        congr 1
        cases b <;> simp
        omega
  cases o
  · show (l.foldl _ 0).testBit j = _
    rw [← List.foldr_reverse, key]
  · exact key l j

theorem fieldValue_lt (o : BitOrder) (l : List Bool) : fieldValue o l < 2 ^ l.length := by
  apply Nat.lt_pow_two_of_testBit
  intro j hj
  rw [fieldValue_bit]
  cases o
  · exact List.getD_eq_default _ _ (by simpa using hj)
  · exact List.getD_eq_default _ _ hj

/-- A field read from a stream fits its width. -/
theorem readField_lt (o : BitOrder) (w : Nat) (b : List Bool) (p : Nat) : readField o w b p < 2 ^ w := by
  have := fieldValue_lt o ((List.range w).map fun j => b.getD (p + j) false)
  simpa [readField] using this

/-- Bit j of a sequence of fields of one width. -/
theorem flatMap_get (n w : Nat) (f : Nat → List Bool) (hf : ∀ i, (f i).length = w) (j : Nat) (hj : j < n * w) :
    ((List.range n).flatMap f).getD j false = (f (j / w)).getD (j % w) false := by
  induction n with
  | zero => simp at hj
  | succ n ih =>
    rw [List.range_succ, List.flatMap_append]
    have hl : ((List.range n).flatMap f).length = n * w := by simp [List.length_flatMap, hf]
    by_cases h : j < n * w
    · rw [List.getD_append _ _ _ _ (by omega), ih h]
    · rw [List.getD_append_right _ _ _ _ (by omega), hl]
      have hdm := Nat.div_add_mod j w
      have hq : j / w = n := Nat.div_eq_of_lt_le (by omega) hj
      rw [hq, Nat.mul_comm] at hdm
      rw [hq, show j - n * w = j % w by omega]
      simp

/-- A pattern that fits its width is itself. -/
theorem patternOf_nat (w u : Nat) (h : u < 2 ^ w) : patternOf w (u : Int) = u := by
  unfold patternOf
  rw [Int.emod_eq_of_lt (by positivity) (by exact_mod_cast h)]
  simp

end Sys2Proof.Machine
end

