-- ==== Sys2Proof/Laws/State.lean ====
section
/-! SUPPORT. For each named update of the state, each field of the state after it (one lemma a field), so that no later proof
unfolds a record update. -/

namespace Sys2Proof.Machine

/-! ### startCommand -/

@[simp] theorem startCommand_build (w : Word) (s : State) : (startCommand w s).build = s.build := rfl
@[simp] theorem startCommand_cfg0 (w : Word) (s : State) : (startCommand w s).cfg0 = s.cfg0 := rfl
@[simp] theorem startCommand_cfg1 (w : Word) (s : State) : (startCommand w s).cfg1 = s.cfg1 := rfl
@[simp] theorem startCommand_curCmd (w : Word) (s : State) : (startCommand w s).curCmd = w := rfl
@[simp] theorem startCommand_status (w : Word) (s : State) : (startCommand w s).status = { s.status with busy := true, done := false, err := false, accept := false, reject := false, errcode := .none, lastOp := w.extractLsb' 0 8 } :=
  rfl
@[simp] theorem startCommand_ie (w : Word) (s : State) : (startCommand w s).ie = s.ie := rfl
@[simp] theorem startCommand_msgLen (w : Word) (s : State) : (startCommand w s).msgLen = s.msgLen := rfl
@[simp] theorem startCommand_sigLen (w : Word) (s : State) : (startCommand w s).sigLen = s.sigLen := rfl
@[simp] theorem startCommand_pkLen (w : Word) (s : State) : (startCommand w s).pkLen = s.pkLen := rfl
@[simp] theorem startCommand_skLen (w : Word) (s : State) : (startCommand w s).skLen = s.skLen := rfl
@[simp] theorem startCommand_kgAttempts (w : Word) (s : State) : (startCommand w s).kgAttempts = s.kgAttempts := rfl
@[simp] theorem startCommand_verifiedCnt (w : Word) (s : State) : (startCommand w s).verifiedCnt = s.verifiedCnt :=
  rfl
@[simp] theorem startCommand_unverifiedCnt (w : Word) (s : State) : (startCommand w s).unverifiedCnt = s.unverifiedCnt :=
  rfl
@[simp] theorem startCommand_acfg (w : Word) (s : State) : (startCommand w s).acfg = s.acfg := rfl
@[simp] theorem startCommand_sk (w : Word) (s : State) : (startCommand w s).sk = s.sk := rfl
@[simp] theorem startCommand_pk (w : Word) (s : State) : (startCommand w s).pk = s.pk := rfl
@[simp] theorem startCommand_pkNtt (w : Word) (s : State) : (startCommand w s).pkNtt = s.pkNtt := rfl
@[simp] theorem startCommand_basis (w : Word) (s : State) : (startCommand w s).basis = s.basis := rfl
@[simp] theorem startCommand_tbasis (w : Word) (s : State) : (startCommand w s).tbasis = s.tbasis := rfl
@[simp] theorem startCommand_scratch (w : Word) (s : State) : (startCommand w s).scratch = s.scratch := rfl
@[simp] theorem startCommand_mem (w : Word) (s : State) : (startCommand w s).mem = s.mem := rfl
@[simp] theorem startCommand_st (w : Word) (s : State) : (startCommand w s).st = .dispatch := rfl
@[simp] theorem startCommand_genPort (w : Word) (s : State) : (startCommand w s).genPort = s.genPort := rfl
@[simp] theorem startCommand_sampPort (w : Word) (s : State) : (startCommand w s).sampPort = s.sampPort := rfl
@[simp] theorem startCommand_silent (w : Word) (s : State) : (startCommand w s).silent = s.silent := rfl
@[simp] theorem startCommand_turn (w : Word) (s : State) : (startCommand w s).turn = s.turn := rfl
@[simp] theorem startCommand_inbox (w : Word) (s : State) : (startCommand w s).inbox = s.inbox := rfl
@[simp] theorem startCommand_rdata (w : Word) (s : State) : (startCommand w s).rdata = s.rdata := rfl
@[simp] theorem startCommand_shown (w : Word) (s : State) : (startCommand w s).shown = Shown.ofState s := rfl

/-! ### finishOk -/

@[simp] theorem finishOk_build (s : State) : (finishOk s).build = s.build := rfl
@[simp] theorem finishOk_cfg0 (s : State) : (finishOk s).cfg0 = s.cfg0 := rfl
@[simp] theorem finishOk_cfg1 (s : State) : (finishOk s).cfg1 = s.cfg1 := rfl
@[simp] theorem finishOk_curCmd (s : State) : (finishOk s).curCmd = s.curCmd := rfl
@[simp] theorem finishOk_status (s : State) : (finishOk s).status = s.status := rfl
@[simp] theorem finishOk_ie (s : State) : (finishOk s).ie = s.ie := rfl
@[simp] theorem finishOk_msgLen (s : State) : (finishOk s).msgLen = s.msgLen := rfl
@[simp] theorem finishOk_sigLen (s : State) : (finishOk s).sigLen = s.sigLen := rfl
@[simp] theorem finishOk_pkLen (s : State) : (finishOk s).pkLen = s.pkLen := rfl
@[simp] theorem finishOk_skLen (s : State) : (finishOk s).skLen = s.skLen := rfl
@[simp] theorem finishOk_kgAttempts (s : State) : (finishOk s).kgAttempts = s.kgAttempts := rfl
@[simp] theorem finishOk_verifiedCnt (s : State) : (finishOk s).verifiedCnt = s.verifiedCnt := rfl
@[simp] theorem finishOk_unverifiedCnt (s : State) : (finishOk s).unverifiedCnt = s.unverifiedCnt := rfl
@[simp] theorem finishOk_acfg (s : State) : (finishOk s).acfg = s.acfg := rfl
@[simp] theorem finishOk_sk (s : State) : (finishOk s).sk = s.sk := rfl
@[simp] theorem finishOk_pk (s : State) : (finishOk s).pk = s.pk := rfl
@[simp] theorem finishOk_pkNtt (s : State) : (finishOk s).pkNtt = s.pkNtt := rfl
@[simp] theorem finishOk_basis (s : State) : (finishOk s).basis = s.basis := rfl
@[simp] theorem finishOk_tbasis (s : State) : (finishOk s).tbasis = s.tbasis := rfl
@[simp] theorem finishOk_scratch (s : State) : (finishOk s).scratch = s.scratch := rfl
@[simp] theorem finishOk_mem (s : State) : (finishOk s).mem = s.mem := rfl
@[simp] theorem finishOk_st (s : State) : (finishOk s).st = .finish := rfl
@[simp] theorem finishOk_genPort (s : State) : (finishOk s).genPort = s.genPort := rfl
@[simp] theorem finishOk_sampPort (s : State) : (finishOk s).sampPort = s.sampPort := rfl
@[simp] theorem finishOk_silent (s : State) : (finishOk s).silent = s.silent := rfl
@[simp] theorem finishOk_turn (s : State) : (finishOk s).turn = s.turn := rfl
@[simp] theorem finishOk_inbox (s : State) : (finishOk s).inbox = s.inbox := rfl
@[simp] theorem finishOk_rdata (s : State) : (finishOk s).rdata = s.rdata := rfl
@[simp] theorem finishOk_shown (s : State) : (finishOk s).shown = s.shown := rfl

/-! ### raiseError -/

@[simp] theorem raiseError_build (e : ErrCode) (s : State) : (raiseError e s).build = s.build := rfl
@[simp] theorem raiseError_cfg0 (e : ErrCode) (s : State) : (raiseError e s).cfg0 = s.cfg0 := rfl
@[simp] theorem raiseError_cfg1 (e : ErrCode) (s : State) : (raiseError e s).cfg1 = s.cfg1 := rfl
@[simp] theorem raiseError_curCmd (e : ErrCode) (s : State) : (raiseError e s).curCmd = s.curCmd := rfl
@[simp] theorem raiseError_status (e : ErrCode) (s : State) : (raiseError e s).status = { s.status with err := true, errcode := e } :=
  rfl
@[simp] theorem raiseError_ie (e : ErrCode) (s : State) : (raiseError e s).ie = s.ie := rfl
@[simp] theorem raiseError_msgLen (e : ErrCode) (s : State) : (raiseError e s).msgLen = s.msgLen := rfl
@[simp] theorem raiseError_sigLen (e : ErrCode) (s : State) : (raiseError e s).sigLen = s.sigLen := rfl
@[simp] theorem raiseError_pkLen (e : ErrCode) (s : State) : (raiseError e s).pkLen = s.pkLen := rfl
@[simp] theorem raiseError_skLen (e : ErrCode) (s : State) : (raiseError e s).skLen = s.skLen := rfl
@[simp] theorem raiseError_kgAttempts (e : ErrCode) (s : State) : (raiseError e s).kgAttempts = s.kgAttempts := rfl
@[simp] theorem raiseError_verifiedCnt (e : ErrCode) (s : State) : (raiseError e s).verifiedCnt = s.verifiedCnt := rfl
@[simp] theorem raiseError_unverifiedCnt (e : ErrCode) (s : State) : (raiseError e s).unverifiedCnt = s.unverifiedCnt :=
  rfl
@[simp] theorem raiseError_acfg (e : ErrCode) (s : State) : (raiseError e s).acfg = s.acfg := rfl
@[simp] theorem raiseError_sk (e : ErrCode) (s : State) : (raiseError e s).sk = s.sk := rfl
@[simp] theorem raiseError_pk (e : ErrCode) (s : State) : (raiseError e s).pk = s.pk := rfl
@[simp] theorem raiseError_pkNtt (e : ErrCode) (s : State) : (raiseError e s).pkNtt = s.pkNtt := rfl
@[simp] theorem raiseError_basis (e : ErrCode) (s : State) : (raiseError e s).basis = s.basis := rfl
@[simp] theorem raiseError_tbasis (e : ErrCode) (s : State) : (raiseError e s).tbasis = s.tbasis := rfl
@[simp] theorem raiseError_scratch (e : ErrCode) (s : State) : (raiseError e s).scratch = s.scratch := rfl
@[simp] theorem raiseError_mem (e : ErrCode) (s : State) : (raiseError e s).mem = s.mem := rfl
@[simp] theorem raiseError_st (e : ErrCode) (s : State) : (raiseError e s).st = .finish := rfl
@[simp] theorem raiseError_genPort (e : ErrCode) (s : State) : (raiseError e s).genPort = s.genPort := rfl
@[simp] theorem raiseError_sampPort (e : ErrCode) (s : State) : (raiseError e s).sampPort = s.sampPort := rfl
@[simp] theorem raiseError_silent (e : ErrCode) (s : State) : (raiseError e s).silent = s.silent := rfl
@[simp] theorem raiseError_turn (e : ErrCode) (s : State) : (raiseError e s).turn = s.turn := rfl
@[simp] theorem raiseError_inbox (e : ErrCode) (s : State) : (raiseError e s).inbox = s.inbox := rfl
@[simp] theorem raiseError_rdata (e : ErrCode) (s : State) : (raiseError e s).rdata = s.rdata := rfl
@[simp] theorem raiseError_shown (e : ErrCode) (s : State) : (raiseError e s).shown = s.shown := rfl

/-! ### accept -/

@[simp] theorem accept_build (s : State) : (accept s).build = s.build := rfl
@[simp] theorem accept_cfg0 (s : State) : (accept s).cfg0 = s.cfg0 := rfl
@[simp] theorem accept_cfg1 (s : State) : (accept s).cfg1 = s.cfg1 := rfl
@[simp] theorem accept_curCmd (s : State) : (accept s).curCmd = s.curCmd := rfl
@[simp] theorem accept_status (s : State) : (accept s).status = { s.status with accept := true } := rfl
@[simp] theorem accept_ie (s : State) : (accept s).ie = s.ie := rfl
@[simp] theorem accept_msgLen (s : State) : (accept s).msgLen = s.msgLen := rfl
@[simp] theorem accept_sigLen (s : State) : (accept s).sigLen = s.sigLen := rfl
@[simp] theorem accept_pkLen (s : State) : (accept s).pkLen = s.pkLen := rfl
@[simp] theorem accept_skLen (s : State) : (accept s).skLen = s.skLen := rfl
@[simp] theorem accept_kgAttempts (s : State) : (accept s).kgAttempts = s.kgAttempts := rfl
@[simp] theorem accept_verifiedCnt (s : State) : (accept s).verifiedCnt = s.verifiedCnt + 1 := rfl
@[simp] theorem accept_unverifiedCnt (s : State) : (accept s).unverifiedCnt = s.unverifiedCnt := rfl
@[simp] theorem accept_acfg (s : State) : (accept s).acfg = s.acfg := rfl
@[simp] theorem accept_sk (s : State) : (accept s).sk = s.sk := rfl
@[simp] theorem accept_pk (s : State) : (accept s).pk = s.pk := rfl
@[simp] theorem accept_pkNtt (s : State) : (accept s).pkNtt = s.pkNtt := rfl
@[simp] theorem accept_basis (s : State) : (accept s).basis = s.basis := rfl
@[simp] theorem accept_tbasis (s : State) : (accept s).tbasis = s.tbasis := rfl
@[simp] theorem accept_scratch (s : State) : (accept s).scratch = s.scratch := rfl
@[simp] theorem accept_mem (s : State) : (accept s).mem = s.mem := rfl
@[simp] theorem accept_st (s : State) : (accept s).st = .finish := rfl
@[simp] theorem accept_genPort (s : State) : (accept s).genPort = s.genPort := rfl
@[simp] theorem accept_sampPort (s : State) : (accept s).sampPort = s.sampPort := rfl
@[simp] theorem accept_silent (s : State) : (accept s).silent = s.silent := rfl
@[simp] theorem accept_turn (s : State) : (accept s).turn = s.turn := rfl
@[simp] theorem accept_inbox (s : State) : (accept s).inbox = s.inbox := rfl
@[simp] theorem accept_rdata (s : State) : (accept s).rdata = s.rdata := rfl
@[simp] theorem accept_shown (s : State) : (accept s).shown = s.shown := rfl

/-! ### reject -/

@[simp] theorem reject_build (s : State) : (reject s).build = s.build := rfl
@[simp] theorem reject_cfg0 (s : State) : (reject s).cfg0 = s.cfg0 := rfl
@[simp] theorem reject_cfg1 (s : State) : (reject s).cfg1 = s.cfg1 := rfl
@[simp] theorem reject_curCmd (s : State) : (reject s).curCmd = s.curCmd := rfl
@[simp] theorem reject_status (s : State) : (reject s).status = { s.status with reject := true, errcode := .verificationRejected } :=
  rfl
@[simp] theorem reject_ie (s : State) : (reject s).ie = s.ie := rfl
@[simp] theorem reject_msgLen (s : State) : (reject s).msgLen = s.msgLen := rfl
@[simp] theorem reject_sigLen (s : State) : (reject s).sigLen = s.sigLen := rfl
@[simp] theorem reject_pkLen (s : State) : (reject s).pkLen = s.pkLen := rfl
@[simp] theorem reject_skLen (s : State) : (reject s).skLen = s.skLen := rfl
@[simp] theorem reject_kgAttempts (s : State) : (reject s).kgAttempts = s.kgAttempts := rfl
@[simp] theorem reject_verifiedCnt (s : State) : (reject s).verifiedCnt = s.verifiedCnt := rfl
@[simp] theorem reject_unverifiedCnt (s : State) : (reject s).unverifiedCnt = s.unverifiedCnt + 1 := rfl
@[simp] theorem reject_acfg (s : State) : (reject s).acfg = s.acfg := rfl
@[simp] theorem reject_sk (s : State) : (reject s).sk = s.sk := rfl
@[simp] theorem reject_pk (s : State) : (reject s).pk = s.pk := rfl
@[simp] theorem reject_pkNtt (s : State) : (reject s).pkNtt = s.pkNtt := rfl
@[simp] theorem reject_basis (s : State) : (reject s).basis = s.basis := rfl
@[simp] theorem reject_tbasis (s : State) : (reject s).tbasis = s.tbasis := rfl
@[simp] theorem reject_scratch (s : State) : (reject s).scratch = s.scratch := rfl
@[simp] theorem reject_mem (s : State) : (reject s).mem = s.mem := rfl
@[simp] theorem reject_st (s : State) : (reject s).st = .finish := rfl
@[simp] theorem reject_genPort (s : State) : (reject s).genPort = s.genPort := rfl
@[simp] theorem reject_sampPort (s : State) : (reject s).sampPort = s.sampPort := rfl
@[simp] theorem reject_silent (s : State) : (reject s).silent = s.silent := rfl
@[simp] theorem reject_turn (s : State) : (reject s).turn = s.turn := rfl
@[simp] theorem reject_inbox (s : State) : (reject s).inbox = s.inbox := rfl
@[simp] theorem reject_rdata (s : State) : (reject s).rdata = s.rdata := rfl
@[simp] theorem reject_shown (s : State) : (reject s).shown = s.shown := rfl

/-! ### endCommand -/

@[simp] theorem endCommand_build (s : State) : (endCommand s).build = s.build := rfl
@[simp] theorem endCommand_cfg0 (s : State) : (endCommand s).cfg0 = s.cfg0 := rfl
@[simp] theorem endCommand_cfg1 (s : State) : (endCommand s).cfg1 = s.cfg1 := rfl
@[simp] theorem endCommand_curCmd (s : State) : (endCommand s).curCmd = s.curCmd := rfl
@[simp] theorem endCommand_status (s : State) : (endCommand s).status = { s.status with busy := false, done := true } :=
  rfl
@[simp] theorem endCommand_ie (s : State) : (endCommand s).ie = s.ie := rfl
@[simp] theorem endCommand_msgLen (s : State) : (endCommand s).msgLen = s.msgLen := rfl
@[simp] theorem endCommand_sigLen (s : State) : (endCommand s).sigLen = s.sigLen := rfl
@[simp] theorem endCommand_pkLen (s : State) : (endCommand s).pkLen = s.pkLen := rfl
@[simp] theorem endCommand_skLen (s : State) : (endCommand s).skLen = s.skLen := rfl
@[simp] theorem endCommand_kgAttempts (s : State) : (endCommand s).kgAttempts = s.kgAttempts := rfl
@[simp] theorem endCommand_verifiedCnt (s : State) : (endCommand s).verifiedCnt = s.verifiedCnt := rfl
@[simp] theorem endCommand_unverifiedCnt (s : State) : (endCommand s).unverifiedCnt = s.unverifiedCnt := rfl
@[simp] theorem endCommand_acfg (s : State) : (endCommand s).acfg = s.acfg := rfl
@[simp] theorem endCommand_sk (s : State) : (endCommand s).sk = s.sk := rfl
@[simp] theorem endCommand_pk (s : State) : (endCommand s).pk = s.pk := rfl
@[simp] theorem endCommand_pkNtt (s : State) : (endCommand s).pkNtt = s.pkNtt := rfl
@[simp] theorem endCommand_basis (s : State) : (endCommand s).basis = s.basis := rfl
@[simp] theorem endCommand_tbasis (s : State) : (endCommand s).tbasis = Basis.zero := rfl
@[simp] theorem endCommand_scratch (s : State) : (endCommand s).scratch = Scratch.zero s.build := rfl
@[simp] theorem endCommand_mem (s : State) : (endCommand s).mem = s.mem := rfl
@[simp] theorem endCommand_st (s : State) : (endCommand s).st = idleState s.status := rfl
@[simp] theorem endCommand_genPort (s : State) : (endCommand s).genPort = s.genPort := rfl
@[simp] theorem endCommand_sampPort (s : State) : (endCommand s).sampPort = s.sampPort := rfl
@[simp] theorem endCommand_silent (s : State) : (endCommand s).silent = s.silent := rfl
@[simp] theorem endCommand_turn (s : State) : (endCommand s).turn = s.turn := rfl
@[simp] theorem endCommand_inbox (s : State) : (endCommand s).inbox = s.inbox := rfl
@[simp] theorem endCommand_rdata (s : State) : (endCommand s).rdata = s.rdata := rfl
@[simp] theorem endCommand_shown (s : State) : (endCommand s).shown = Shown.zero := rfl

/-! ### busError -/

@[simp] theorem busError_build (s : State) : (busError s).build = s.build := rfl
@[simp] theorem busError_cfg0 (s : State) : (busError s).cfg0 = s.cfg0 := rfl
@[simp] theorem busError_cfg1 (s : State) : (busError s).cfg1 = s.cfg1 := rfl
@[simp] theorem busError_curCmd (s : State) : (busError s).curCmd = s.curCmd := rfl
@[simp] theorem busError_status (s : State) : (busError s).status = { s.status with busErr := true } := rfl
@[simp] theorem busError_ie (s : State) : (busError s).ie = s.ie := rfl
@[simp] theorem busError_msgLen (s : State) : (busError s).msgLen = s.msgLen := rfl
@[simp] theorem busError_sigLen (s : State) : (busError s).sigLen = s.sigLen := rfl
@[simp] theorem busError_pkLen (s : State) : (busError s).pkLen = s.pkLen := rfl
@[simp] theorem busError_skLen (s : State) : (busError s).skLen = s.skLen := rfl
@[simp] theorem busError_kgAttempts (s : State) : (busError s).kgAttempts = s.kgAttempts := rfl
@[simp] theorem busError_verifiedCnt (s : State) : (busError s).verifiedCnt = s.verifiedCnt := rfl
@[simp] theorem busError_unverifiedCnt (s : State) : (busError s).unverifiedCnt = s.unverifiedCnt := rfl
@[simp] theorem busError_acfg (s : State) : (busError s).acfg = s.acfg := rfl
@[simp] theorem busError_sk (s : State) : (busError s).sk = s.sk := rfl
@[simp] theorem busError_pk (s : State) : (busError s).pk = s.pk := rfl
@[simp] theorem busError_pkNtt (s : State) : (busError s).pkNtt = s.pkNtt := rfl
@[simp] theorem busError_basis (s : State) : (busError s).basis = s.basis := rfl
@[simp] theorem busError_tbasis (s : State) : (busError s).tbasis = s.tbasis := rfl
@[simp] theorem busError_scratch (s : State) : (busError s).scratch = s.scratch := rfl
@[simp] theorem busError_mem (s : State) : (busError s).mem = s.mem := rfl
@[simp] theorem busError_st (s : State) : (busError s).st = s.st := rfl
@[simp] theorem busError_genPort (s : State) : (busError s).genPort = s.genPort := rfl
@[simp] theorem busError_sampPort (s : State) : (busError s).sampPort = s.sampPort := rfl
@[simp] theorem busError_silent (s : State) : (busError s).silent = s.silent := rfl
@[simp] theorem busError_turn (s : State) : (busError s).turn = s.turn := rfl
@[simp] theorem busError_inbox (s : State) : (busError s).inbox = s.inbox := rfl
@[simp] theorem busError_rdata (s : State) : (busError s).rdata = s.rdata := rfl
@[simp] theorem busError_shown (s : State) : (busError s).shown = s.shown := rfl

/-! ### kgRestart -/

@[simp] theorem kgRestart_build (s : State) : (kgRestart s).build = s.build := rfl
@[simp] theorem kgRestart_cfg0 (s : State) : (kgRestart s).cfg0 = s.cfg0 := rfl
@[simp] theorem kgRestart_cfg1 (s : State) : (kgRestart s).cfg1 = s.cfg1 := rfl
@[simp] theorem kgRestart_curCmd (s : State) : (kgRestart s).curCmd = s.curCmd := rfl
@[simp] theorem kgRestart_status (s : State) : (kgRestart s).status = s.status := rfl
@[simp] theorem kgRestart_ie (s : State) : (kgRestart s).ie = s.ie := rfl
@[simp] theorem kgRestart_msgLen (s : State) : (kgRestart s).msgLen = s.msgLen := rfl
@[simp] theorem kgRestart_sigLen (s : State) : (kgRestart s).sigLen = s.sigLen := rfl
@[simp] theorem kgRestart_pkLen (s : State) : (kgRestart s).pkLen = s.pkLen := rfl
@[simp] theorem kgRestart_skLen (s : State) : (kgRestart s).skLen = s.skLen := rfl
@[simp] theorem kgRestart_kgAttempts (s : State) : (kgRestart s).kgAttempts = s.kgAttempts := rfl
@[simp] theorem kgRestart_verifiedCnt (s : State) : (kgRestart s).verifiedCnt = s.verifiedCnt := rfl
@[simp] theorem kgRestart_unverifiedCnt (s : State) : (kgRestart s).unverifiedCnt = s.unverifiedCnt := rfl
@[simp] theorem kgRestart_acfg (s : State) : (kgRestart s).acfg = s.acfg := rfl
@[simp] theorem kgRestart_sk (s : State) : (kgRestart s).sk = s.sk := rfl
@[simp] theorem kgRestart_pk (s : State) : (kgRestart s).pk = s.pk := rfl
@[simp] theorem kgRestart_pkNtt (s : State) : (kgRestart s).pkNtt = s.pkNtt := rfl
@[simp] theorem kgRestart_basis (s : State) : (kgRestart s).basis = s.basis := rfl
@[simp] theorem kgRestart_tbasis (s : State) : (kgRestart s).tbasis = s.tbasis := rfl
@[simp] theorem kgRestart_scratch (s : State) : (kgRestart s).scratch = Scratch.zero s.build := rfl
@[simp] theorem kgRestart_mem (s : State) : (kgRestart s).mem = s.mem := rfl
@[simp] theorem kgRestart_st (s : State) : (kgRestart s).st = .kgGenerate := rfl
@[simp] theorem kgRestart_genPort (s : State) : (kgRestart s).genPort = s.genPort := rfl
@[simp] theorem kgRestart_sampPort (s : State) : (kgRestart s).sampPort = s.sampPort := rfl
@[simp] theorem kgRestart_silent (s : State) : (kgRestart s).silent = s.silent := rfl
@[simp] theorem kgRestart_turn (s : State) : (kgRestart s).turn = s.turn := rfl
@[simp] theorem kgRestart_inbox (s : State) : (kgRestart s).inbox = s.inbox := rfl
@[simp] theorem kgRestart_rdata (s : State) : (kgRestart s).rdata = s.rdata := rfl
@[simp] theorem kgRestart_shown (s : State) : (kgRestart s).shown = s.shown := rfl

/-! ### latchConfig -/

@[simp] theorem latchConfig_build (a : Acfg) (s : State) : (latchConfig a s).build = s.build := rfl
@[simp] theorem latchConfig_cfg0 (a : Acfg) (s : State) : (latchConfig a s).cfg0 = s.cfg0 := rfl
@[simp] theorem latchConfig_cfg1 (a : Acfg) (s : State) : (latchConfig a s).cfg1 = s.cfg1 := rfl
@[simp] theorem latchConfig_curCmd (a : Acfg) (s : State) : (latchConfig a s).curCmd = s.curCmd := rfl
@[simp] theorem latchConfig_status (a : Acfg) (s : State) : (latchConfig a s).status = { s.status with configured := true, skValid := false, pkValid := false, basisValid := false } :=
  rfl
@[simp] theorem latchConfig_ie (a : Acfg) (s : State) : (latchConfig a s).ie = s.ie := rfl
@[simp] theorem latchConfig_msgLen (a : Acfg) (s : State) : (latchConfig a s).msgLen = s.msgLen := rfl
@[simp] theorem latchConfig_sigLen (a : Acfg) (s : State) : (latchConfig a s).sigLen = s.sigLen := rfl
@[simp] theorem latchConfig_pkLen (a : Acfg) (s : State) : (latchConfig a s).pkLen = s.pkLen := rfl
@[simp] theorem latchConfig_skLen (a : Acfg) (s : State) : (latchConfig a s).skLen = s.skLen := rfl
@[simp] theorem latchConfig_kgAttempts (a : Acfg) (s : State) : (latchConfig a s).kgAttempts = 0 := rfl
@[simp] theorem latchConfig_verifiedCnt (a : Acfg) (s : State) : (latchConfig a s).verifiedCnt = 0 := rfl
@[simp] theorem latchConfig_unverifiedCnt (a : Acfg) (s : State) : (latchConfig a s).unverifiedCnt = 0 := rfl
@[simp] theorem latchConfig_acfg (a : Acfg) (s : State) : (latchConfig a s).acfg = a := rfl
@[simp] theorem latchConfig_sk (a : Acfg) (s : State) : (latchConfig a s).sk = s.sk := rfl
@[simp] theorem latchConfig_pk (a : Acfg) (s : State) : (latchConfig a s).pk = s.pk := rfl
@[simp] theorem latchConfig_pkNtt (a : Acfg) (s : State) : (latchConfig a s).pkNtt = s.pkNtt := rfl
@[simp] theorem latchConfig_basis (a : Acfg) (s : State) : (latchConfig a s).basis = s.basis := rfl
@[simp] theorem latchConfig_tbasis (a : Acfg) (s : State) : (latchConfig a s).tbasis = s.tbasis := rfl
@[simp] theorem latchConfig_scratch (a : Acfg) (s : State) : (latchConfig a s).scratch = s.scratch := rfl
@[simp] theorem latchConfig_mem (a : Acfg) (s : State) : (latchConfig a s).mem = s.mem := rfl
@[simp] theorem latchConfig_st (a : Acfg) (s : State) : (latchConfig a s).st = s.st := rfl
@[simp] theorem latchConfig_genPort (a : Acfg) (s : State) : (latchConfig a s).genPort = s.genPort := rfl
@[simp] theorem latchConfig_sampPort (a : Acfg) (s : State) : (latchConfig a s).sampPort = s.sampPort := rfl
@[simp] theorem latchConfig_silent (a : Acfg) (s : State) : (latchConfig a s).silent = s.silent := rfl
@[simp] theorem latchConfig_turn (a : Acfg) (s : State) : (latchConfig a s).turn = s.turn := rfl
@[simp] theorem latchConfig_inbox (a : Acfg) (s : State) : (latchConfig a s).inbox = s.inbox := rfl
@[simp] theorem latchConfig_rdata (a : Acfg) (s : State) : (latchConfig a s).rdata = s.rdata := rfl
@[simp] theorem latchConfig_shown (a : Acfg) (s : State) : (latchConfig a s).shown = s.shown := rfl

/-! ### installKey -/

@[simp] theorem installKey_build (C : Collab) (s : State) : (installKey C s).build = s.build := rfl
@[simp] theorem installKey_cfg0 (C : Collab) (s : State) : (installKey C s).cfg0 = s.cfg0 := rfl
@[simp] theorem installKey_cfg1 (C : Collab) (s : State) : (installKey C s).cfg1 = s.cfg1 := rfl
@[simp] theorem installKey_curCmd (C : Collab) (s : State) : (installKey C s).curCmd = s.curCmd := rfl
@[simp] theorem installKey_status (C : Collab) (s : State) : (installKey C s).status = { s.status with basisValid := s.acfg.keep } :=
  rfl
@[simp] theorem installKey_ie (C : Collab) (s : State) : (installKey C s).ie = s.ie := rfl
@[simp] theorem installKey_msgLen (C : Collab) (s : State) : (installKey C s).msgLen = s.msgLen := rfl
@[simp] theorem installKey_sigLen (C : Collab) (s : State) : (installKey C s).sigLen = s.sigLen := rfl
@[simp] theorem installKey_pkLen (C : Collab) (s : State) : (installKey C s).pkLen = s.pkLen := rfl
@[simp] theorem installKey_skLen (C : Collab) (s : State) : (installKey C s).skLen = s.skLen := rfl
@[simp] theorem installKey_kgAttempts (C : Collab) (s : State) : (installKey C s).kgAttempts = s.kgAttempts := rfl
@[simp] theorem installKey_verifiedCnt (C : Collab) (s : State) : (installKey C s).verifiedCnt = s.verifiedCnt := rfl
@[simp] theorem installKey_unverifiedCnt (C : Collab) (s : State) : (installKey C s).unverifiedCnt = s.unverifiedCnt :=
  rfl
@[simp] theorem installKey_acfg (C : Collab) (s : State) : (installKey C s).acfg = s.acfg := rfl
@[simp] theorem installKey_sk (C : Collab) (s : State) : (installKey C s).sk = s.sk := rfl
@[simp] theorem installKey_pk (C : Collab) (s : State) : (installKey C s).pk = s.pk := rfl
@[simp] theorem installKey_pkNtt (C : Collab) (s : State) : (installKey C s).pkNtt = s.pkNtt := rfl
@[simp] theorem installKey_basis (C : Collab) (s : State) : (installKey C s).basis = if s.acfg.keep then basisFor C s s.sk else Basis.zero :=
  rfl
@[simp] theorem installKey_tbasis (C : Collab) (s : State) : (installKey C s).tbasis = s.tbasis := rfl
@[simp] theorem installKey_scratch (C : Collab) (s : State) : (installKey C s).scratch = s.scratch := rfl
@[simp] theorem installKey_mem (C : Collab) (s : State) : (installKey C s).mem = s.mem := rfl
@[simp] theorem installKey_st (C : Collab) (s : State) : (installKey C s).st = s.st := rfl
@[simp] theorem installKey_genPort (C : Collab) (s : State) : (installKey C s).genPort = s.genPort := rfl
@[simp] theorem installKey_sampPort (C : Collab) (s : State) : (installKey C s).sampPort = s.sampPort := rfl
@[simp] theorem installKey_silent (C : Collab) (s : State) : (installKey C s).silent = s.silent := rfl
@[simp] theorem installKey_turn (C : Collab) (s : State) : (installKey C s).turn = s.turn := rfl
@[simp] theorem installKey_inbox (C : Collab) (s : State) : (installKey C s).inbox = s.inbox := rfl
@[simp] theorem installKey_rdata (C : Collab) (s : State) : (installKey C s).rdata = s.rdata := rfl
@[simp] theorem installKey_shown (C : Collab) (s : State) : (installKey C s).shown = s.shown := rfl

/-! ### invalidateBasis -/

@[simp] theorem invalidateBasis_build (s : State) : (invalidateBasis s).build = s.build := rfl
@[simp] theorem invalidateBasis_cfg0 (s : State) : (invalidateBasis s).cfg0 = s.cfg0 := rfl
@[simp] theorem invalidateBasis_cfg1 (s : State) : (invalidateBasis s).cfg1 = s.cfg1 := rfl
@[simp] theorem invalidateBasis_curCmd (s : State) : (invalidateBasis s).curCmd = s.curCmd := rfl
@[simp] theorem invalidateBasis_status (s : State) : (invalidateBasis s).status = { s.status with basisValid := false } :=
  rfl
@[simp] theorem invalidateBasis_ie (s : State) : (invalidateBasis s).ie = s.ie := rfl
@[simp] theorem invalidateBasis_msgLen (s : State) : (invalidateBasis s).msgLen = s.msgLen := rfl
@[simp] theorem invalidateBasis_sigLen (s : State) : (invalidateBasis s).sigLen = s.sigLen := rfl
@[simp] theorem invalidateBasis_pkLen (s : State) : (invalidateBasis s).pkLen = s.pkLen := rfl
@[simp] theorem invalidateBasis_skLen (s : State) : (invalidateBasis s).skLen = s.skLen := rfl
@[simp] theorem invalidateBasis_kgAttempts (s : State) : (invalidateBasis s).kgAttempts = s.kgAttempts := rfl
@[simp] theorem invalidateBasis_verifiedCnt (s : State) : (invalidateBasis s).verifiedCnt = s.verifiedCnt := rfl
@[simp] theorem invalidateBasis_unverifiedCnt (s : State) : (invalidateBasis s).unverifiedCnt = s.unverifiedCnt := rfl
@[simp] theorem invalidateBasis_acfg (s : State) : (invalidateBasis s).acfg = s.acfg := rfl
@[simp] theorem invalidateBasis_sk (s : State) : (invalidateBasis s).sk = s.sk := rfl
@[simp] theorem invalidateBasis_pk (s : State) : (invalidateBasis s).pk = s.pk := rfl
@[simp] theorem invalidateBasis_pkNtt (s : State) : (invalidateBasis s).pkNtt = s.pkNtt := rfl
@[simp] theorem invalidateBasis_basis (s : State) : (invalidateBasis s).basis = Basis.zero := rfl
@[simp] theorem invalidateBasis_tbasis (s : State) : (invalidateBasis s).tbasis = s.tbasis := rfl
@[simp] theorem invalidateBasis_scratch (s : State) : (invalidateBasis s).scratch = s.scratch := rfl
@[simp] theorem invalidateBasis_mem (s : State) : (invalidateBasis s).mem = s.mem := rfl
@[simp] theorem invalidateBasis_st (s : State) : (invalidateBasis s).st = s.st := rfl
@[simp] theorem invalidateBasis_genPort (s : State) : (invalidateBasis s).genPort = s.genPort := rfl
@[simp] theorem invalidateBasis_sampPort (s : State) : (invalidateBasis s).sampPort = s.sampPort := rfl
@[simp] theorem invalidateBasis_silent (s : State) : (invalidateBasis s).silent = s.silent := rfl
@[simp] theorem invalidateBasis_turn (s : State) : (invalidateBasis s).turn = s.turn := rfl
@[simp] theorem invalidateBasis_inbox (s : State) : (invalidateBasis s).inbox = s.inbox := rfl
@[simp] theorem invalidateBasis_rdata (s : State) : (invalidateBasis s).rdata = s.rdata := rfl
@[simp] theorem invalidateBasis_shown (s : State) : (invalidateBasis s).shown = s.shown := rfl

/-! ### scratchPut -/

@[simp] theorem scratchPut_build (slot : Slot) (v : List Int) (s : State) : (scratchPut slot v s).build = s.build :=
  rfl
@[simp] theorem scratchPut_cfg0 (slot : Slot) (v : List Int) (s : State) : (scratchPut slot v s).cfg0 = s.cfg0 := rfl
@[simp] theorem scratchPut_cfg1 (slot : Slot) (v : List Int) (s : State) : (scratchPut slot v s).cfg1 = s.cfg1 := rfl
@[simp] theorem scratchPut_curCmd (slot : Slot) (v : List Int) (s : State) : (scratchPut slot v s).curCmd = s.curCmd :=
  rfl
@[simp] theorem scratchPut_status (slot : Slot) (v : List Int) (s : State) : (scratchPut slot v s).status = s.status :=
  rfl
@[simp] theorem scratchPut_ie (slot : Slot) (v : List Int) (s : State) : (scratchPut slot v s).ie = s.ie := rfl
@[simp] theorem scratchPut_msgLen (slot : Slot) (v : List Int) (s : State) : (scratchPut slot v s).msgLen = s.msgLen :=
  rfl
@[simp] theorem scratchPut_sigLen (slot : Slot) (v : List Int) (s : State) : (scratchPut slot v s).sigLen = s.sigLen :=
  rfl
@[simp] theorem scratchPut_pkLen (slot : Slot) (v : List Int) (s : State) : (scratchPut slot v s).pkLen = s.pkLen :=
  rfl
@[simp] theorem scratchPut_skLen (slot : Slot) (v : List Int) (s : State) : (scratchPut slot v s).skLen = s.skLen :=
  rfl
@[simp] theorem scratchPut_kgAttempts (slot : Slot) (v : List Int) (s : State) : (scratchPut slot v s).kgAttempts = s.kgAttempts :=
  rfl
@[simp] theorem scratchPut_verifiedCnt (slot : Slot) (v : List Int) (s : State) : (scratchPut slot v s).verifiedCnt = s.verifiedCnt :=
  rfl
@[simp] theorem scratchPut_unverifiedCnt (slot : Slot) (v : List Int) (s : State) : (scratchPut slot v s).unverifiedCnt = s.unverifiedCnt :=
  rfl
@[simp] theorem scratchPut_acfg (slot : Slot) (v : List Int) (s : State) : (scratchPut slot v s).acfg = s.acfg := rfl
@[simp] theorem scratchPut_sk (slot : Slot) (v : List Int) (s : State) : (scratchPut slot v s).sk = s.sk := rfl
@[simp] theorem scratchPut_pk (slot : Slot) (v : List Int) (s : State) : (scratchPut slot v s).pk = s.pk := rfl
@[simp] theorem scratchPut_pkNtt (slot : Slot) (v : List Int) (s : State) : (scratchPut slot v s).pkNtt = s.pkNtt :=
  rfl
@[simp] theorem scratchPut_basis (slot : Slot) (v : List Int) (s : State) : (scratchPut slot v s).basis = s.basis :=
  rfl
@[simp] theorem scratchPut_tbasis (slot : Slot) (v : List Int) (s : State) : (scratchPut slot v s).tbasis = s.tbasis :=
  rfl
@[simp] theorem scratchPut_mem (slot : Slot) (v : List Int) (s : State) : (scratchPut slot v s).mem = s.mem := rfl
@[simp] theorem scratchPut_st (slot : Slot) (v : List Int) (s : State) : (scratchPut slot v s).st = s.st := rfl
@[simp] theorem scratchPut_genPort (slot : Slot) (v : List Int) (s : State) : (scratchPut slot v s).genPort = s.genPort :=
  rfl
@[simp] theorem scratchPut_sampPort (slot : Slot) (v : List Int) (s : State) : (scratchPut slot v s).sampPort = s.sampPort :=
  rfl
@[simp] theorem scratchPut_silent (slot : Slot) (v : List Int) (s : State) : (scratchPut slot v s).silent = s.silent :=
  rfl
@[simp] theorem scratchPut_turn (slot : Slot) (v : List Int) (s : State) : (scratchPut slot v s).turn = s.turn := rfl
@[simp] theorem scratchPut_inbox (slot : Slot) (v : List Int) (s : State) : (scratchPut slot v s).inbox = s.inbox :=
  rfl
@[simp] theorem scratchPut_rdata (slot : Slot) (v : List Int) (s : State) : (scratchPut slot v s).rdata = s.rdata :=
  rfl
@[simp] theorem scratchPut_shown (slot : Slot) (v : List Int) (s : State) : (scratchPut slot v s).shown = s.shown :=
  rfl

/-! ### putCandidate -/

@[simp] theorem putCandidate_build (c : Candidate) (s : State) : (putCandidate c s).build = s.build := rfl
@[simp] theorem putCandidate_cfg0 (c : Candidate) (s : State) : (putCandidate c s).cfg0 = s.cfg0 := rfl
@[simp] theorem putCandidate_cfg1 (c : Candidate) (s : State) : (putCandidate c s).cfg1 = s.cfg1 := rfl
@[simp] theorem putCandidate_curCmd (c : Candidate) (s : State) : (putCandidate c s).curCmd = s.curCmd := rfl
@[simp] theorem putCandidate_status (c : Candidate) (s : State) : (putCandidate c s).status = s.status := rfl
@[simp] theorem putCandidate_ie (c : Candidate) (s : State) : (putCandidate c s).ie = s.ie := rfl
@[simp] theorem putCandidate_msgLen (c : Candidate) (s : State) : (putCandidate c s).msgLen = s.msgLen := rfl
@[simp] theorem putCandidate_sigLen (c : Candidate) (s : State) : (putCandidate c s).sigLen = s.sigLen := rfl
@[simp] theorem putCandidate_pkLen (c : Candidate) (s : State) : (putCandidate c s).pkLen = s.pkLen := rfl
@[simp] theorem putCandidate_skLen (c : Candidate) (s : State) : (putCandidate c s).skLen = s.skLen := rfl
@[simp] theorem putCandidate_kgAttempts (c : Candidate) (s : State) : (putCandidate c s).kgAttempts = s.kgAttempts :=
  rfl
@[simp] theorem putCandidate_verifiedCnt (c : Candidate) (s : State) : (putCandidate c s).verifiedCnt = s.verifiedCnt :=
  rfl
@[simp] theorem putCandidate_unverifiedCnt (c : Candidate) (s : State) : (putCandidate c s).unverifiedCnt = s.unverifiedCnt :=
  rfl
@[simp] theorem putCandidate_acfg (c : Candidate) (s : State) : (putCandidate c s).acfg = s.acfg := rfl
@[simp] theorem putCandidate_sk (c : Candidate) (s : State) : (putCandidate c s).sk = s.sk := rfl
@[simp] theorem putCandidate_pk (c : Candidate) (s : State) : (putCandidate c s).pk = s.pk := rfl
@[simp] theorem putCandidate_pkNtt (c : Candidate) (s : State) : (putCandidate c s).pkNtt = s.pkNtt := rfl
@[simp] theorem putCandidate_basis (c : Candidate) (s : State) : (putCandidate c s).basis = s.basis := rfl
@[simp] theorem putCandidate_tbasis (c : Candidate) (s : State) : (putCandidate c s).tbasis = s.tbasis := rfl
@[simp] theorem putCandidate_mem (c : Candidate) (s : State) : (putCandidate c s).mem = s.mem := rfl
@[simp] theorem putCandidate_st (c : Candidate) (s : State) : (putCandidate c s).st = s.st := rfl
@[simp] theorem putCandidate_genPort (c : Candidate) (s : State) : (putCandidate c s).genPort = s.genPort := rfl
@[simp] theorem putCandidate_sampPort (c : Candidate) (s : State) : (putCandidate c s).sampPort = s.sampPort := rfl
@[simp] theorem putCandidate_silent (c : Candidate) (s : State) : (putCandidate c s).silent = s.silent := rfl
@[simp] theorem putCandidate_turn (c : Candidate) (s : State) : (putCandidate c s).turn = s.turn := rfl
@[simp] theorem putCandidate_inbox (c : Candidate) (s : State) : (putCandidate c s).inbox = s.inbox := rfl
@[simp] theorem putCandidate_rdata (c : Candidate) (s : State) : (putCandidate c s).rdata = s.rdata := rfl
@[simp] theorem putCandidate_shown (c : Candidate) (s : State) : (putCandidate c s).shown = s.shown := rfl

/-! ### receive -/

@[simp] theorem receive_build (s : State) : (receive s).build = s.build := rfl
@[simp] theorem receive_cfg0 (s : State) : (receive s).cfg0 = s.cfg0 := rfl
@[simp] theorem receive_cfg1 (s : State) : (receive s).cfg1 = s.cfg1 := rfl
@[simp] theorem receive_curCmd (s : State) : (receive s).curCmd = s.curCmd := rfl
@[simp] theorem receive_status (s : State) : (receive s).status = s.status := rfl
@[simp] theorem receive_ie (s : State) : (receive s).ie = s.ie := rfl
@[simp] theorem receive_msgLen (s : State) : (receive s).msgLen = s.msgLen := rfl
@[simp] theorem receive_sigLen (s : State) : (receive s).sigLen = s.sigLen := rfl
@[simp] theorem receive_pkLen (s : State) : (receive s).pkLen = s.pkLen := rfl
@[simp] theorem receive_skLen (s : State) : (receive s).skLen = s.skLen := rfl
@[simp] theorem receive_kgAttempts (s : State) : (receive s).kgAttempts = s.kgAttempts := rfl
@[simp] theorem receive_verifiedCnt (s : State) : (receive s).verifiedCnt = s.verifiedCnt := rfl
@[simp] theorem receive_unverifiedCnt (s : State) : (receive s).unverifiedCnt = s.unverifiedCnt := rfl
@[simp] theorem receive_acfg (s : State) : (receive s).acfg = s.acfg := rfl
@[simp] theorem receive_sk (s : State) : (receive s).sk = s.sk := rfl
@[simp] theorem receive_pk (s : State) : (receive s).pk = s.pk := rfl
@[simp] theorem receive_pkNtt (s : State) : (receive s).pkNtt = s.pkNtt := rfl
@[simp] theorem receive_basis (s : State) : (receive s).basis = s.basis := rfl
@[simp] theorem receive_tbasis (s : State) : (receive s).tbasis = s.tbasis := rfl
@[simp] theorem receive_scratch (s : State) : (receive s).scratch = s.scratch := rfl
@[simp] theorem receive_mem (s : State) : (receive s).mem = s.mem := rfl
@[simp] theorem receive_st (s : State) : (receive s).st = s.st := rfl
@[simp] theorem receive_silent (s : State) : (receive s).silent = (Config.replies s.turn).silent := rfl
@[simp] theorem receive_turn (s : State) : (receive s).turn = s.turn + 1 := rfl
@[simp] theorem receive_inbox (s : State) : (receive s).inbox = s.inbox := rfl
@[simp] theorem receive_rdata (s : State) : (receive s).rdata = s.rdata := rfl
@[simp] theorem receive_shown (s : State) : (receive s).shown = s.shown := rfl

/-! ### windowStore -/

/-- Zeroing a window is storing no byte. -/
@[simp] theorem windowZero_eq (win : Window) (s : State) : windowZero win s = windowStore win [] s := rfl

@[simp] theorem windowStore_build (win : Window) (bytes : List Byte) (s : State) : (windowStore win bytes s).build = s.build :=
  by cases win <;> rfl
@[simp] theorem windowStore_cfg0 (win : Window) (bytes : List Byte) (s : State) : (windowStore win bytes s).cfg0 = s.cfg0 :=
  by cases win <;> rfl
@[simp] theorem windowStore_cfg1 (win : Window) (bytes : List Byte) (s : State) : (windowStore win bytes s).cfg1 = s.cfg1 :=
  by cases win <;> rfl
@[simp] theorem windowStore_curCmd (win : Window) (bytes : List Byte) (s : State) : (windowStore win bytes s).curCmd = s.curCmd :=
  by cases win <;> rfl
@[simp] theorem windowStore_status (win : Window) (bytes : List Byte) (s : State) : (windowStore win bytes s).status = s.status :=
  by cases win <;> rfl
@[simp] theorem windowStore_ie (win : Window) (bytes : List Byte) (s : State) : (windowStore win bytes s).ie = s.ie :=
  by cases win <;> rfl
@[simp] theorem windowStore_kgAttempts (win : Window) (bytes : List Byte) (s : State) : (windowStore win bytes s).kgAttempts = s.kgAttempts :=
  by cases win <;> rfl
@[simp] theorem windowStore_verifiedCnt (win : Window) (bytes : List Byte) (s : State) : (windowStore win bytes s).verifiedCnt = s.verifiedCnt :=
  by cases win <;> rfl
@[simp] theorem windowStore_unverifiedCnt (win : Window) (bytes : List Byte) (s : State) : (windowStore win bytes s).unverifiedCnt = s.unverifiedCnt :=
  by cases win <;> rfl
@[simp] theorem windowStore_acfg (win : Window) (bytes : List Byte) (s : State) : (windowStore win bytes s).acfg = s.acfg :=
  by cases win <;> rfl
@[simp] theorem windowStore_sk (win : Window) (bytes : List Byte) (s : State) : (windowStore win bytes s).sk = s.sk :=
  by cases win <;> rfl
@[simp] theorem windowStore_pk (win : Window) (bytes : List Byte) (s : State) : (windowStore win bytes s).pk = s.pk :=
  by cases win <;> rfl
@[simp] theorem windowStore_pkNtt (win : Window) (bytes : List Byte) (s : State) : (windowStore win bytes s).pkNtt = s.pkNtt :=
  by cases win <;> rfl
@[simp] theorem windowStore_basis (win : Window) (bytes : List Byte) (s : State) : (windowStore win bytes s).basis = s.basis :=
  by cases win <;> rfl
@[simp] theorem windowStore_tbasis (win : Window) (bytes : List Byte) (s : State) : (windowStore win bytes s).tbasis = s.tbasis :=
  by cases win <;> rfl
@[simp] theorem windowStore_scratch (win : Window) (bytes : List Byte) (s : State) : (windowStore win bytes s).scratch = s.scratch :=
  by cases win <;> rfl
@[simp] theorem windowStore_st (win : Window) (bytes : List Byte) (s : State) : (windowStore win bytes s).st = s.st :=
  by cases win <;> rfl
@[simp] theorem windowStore_genPort (win : Window) (bytes : List Byte) (s : State) : (windowStore win bytes s).genPort = s.genPort :=
  by cases win <;> rfl
@[simp] theorem windowStore_sampPort (win : Window) (bytes : List Byte) (s : State) : (windowStore win bytes s).sampPort = s.sampPort :=
  by cases win <;> rfl
@[simp] theorem windowStore_silent (win : Window) (bytes : List Byte) (s : State) : (windowStore win bytes s).silent = s.silent :=
  by cases win <;> rfl
@[simp] theorem windowStore_turn (win : Window) (bytes : List Byte) (s : State) : (windowStore win bytes s).turn = s.turn :=
  by cases win <;> rfl
@[simp] theorem windowStore_inbox (win : Window) (bytes : List Byte) (s : State) : (windowStore win bytes s).inbox = s.inbox :=
  by cases win <;> rfl
@[simp] theorem windowStore_rdata (win : Window) (bytes : List Byte) (s : State) : (windowStore win bytes s).rdata = s.rdata :=
  by cases win <;> rfl
@[simp] theorem windowStore_shown (win : Window) (bytes : List Byte) (s : State) : (windowStore win bytes s).shown = s.shown :=
  by cases win <;> rfl

/-! ### getBasis -/

@[simp] theorem getBasis_build (C : Collab) (s : State) : (getBasis C s).build = s.build :=
  by unfold getBasis; split <;> rfl
@[simp] theorem getBasis_cfg0 (C : Collab) (s : State) : (getBasis C s).cfg0 = s.cfg0 :=
  by unfold getBasis; split <;> rfl
@[simp] theorem getBasis_cfg1 (C : Collab) (s : State) : (getBasis C s).cfg1 = s.cfg1 :=
  by unfold getBasis; split <;> rfl
@[simp] theorem getBasis_curCmd (C : Collab) (s : State) : (getBasis C s).curCmd = s.curCmd :=
  by unfold getBasis; split <;> rfl
@[simp] theorem getBasis_status (C : Collab) (s : State) : (getBasis C s).status = s.status :=
  by unfold getBasis; split <;> rfl
@[simp] theorem getBasis_ie (C : Collab) (s : State) : (getBasis C s).ie = s.ie := by unfold getBasis; split <;> rfl
@[simp] theorem getBasis_msgLen (C : Collab) (s : State) : (getBasis C s).msgLen = s.msgLen :=
  by unfold getBasis; split <;> rfl
@[simp] theorem getBasis_sigLen (C : Collab) (s : State) : (getBasis C s).sigLen = s.sigLen :=
  by unfold getBasis; split <;> rfl
@[simp] theorem getBasis_pkLen (C : Collab) (s : State) : (getBasis C s).pkLen = s.pkLen :=
  by unfold getBasis; split <;> rfl
@[simp] theorem getBasis_skLen (C : Collab) (s : State) : (getBasis C s).skLen = s.skLen :=
  by unfold getBasis; split <;> rfl
@[simp] theorem getBasis_kgAttempts (C : Collab) (s : State) : (getBasis C s).kgAttempts = s.kgAttempts :=
  by unfold getBasis; split <;> rfl
@[simp] theorem getBasis_verifiedCnt (C : Collab) (s : State) : (getBasis C s).verifiedCnt = s.verifiedCnt :=
  by unfold getBasis; split <;> rfl
@[simp] theorem getBasis_unverifiedCnt (C : Collab) (s : State) : (getBasis C s).unverifiedCnt = s.unverifiedCnt :=
  by unfold getBasis; split <;> rfl
@[simp] theorem getBasis_acfg (C : Collab) (s : State) : (getBasis C s).acfg = s.acfg :=
  by unfold getBasis; split <;> rfl
@[simp] theorem getBasis_sk (C : Collab) (s : State) : (getBasis C s).sk = s.sk := by unfold getBasis; split <;> rfl
@[simp] theorem getBasis_pk (C : Collab) (s : State) : (getBasis C s).pk = s.pk := by unfold getBasis; split <;> rfl
@[simp] theorem getBasis_pkNtt (C : Collab) (s : State) : (getBasis C s).pkNtt = s.pkNtt :=
  by unfold getBasis; split <;> rfl
@[simp] theorem getBasis_basis (C : Collab) (s : State) : (getBasis C s).basis = s.basis :=
  by unfold getBasis; split <;> rfl
@[simp] theorem getBasis_tbasis (C : Collab) (s : State) : (getBasis C s).tbasis = if s.acfg.keep then s.tbasis else basisFor C s s.sk :=
  by unfold getBasis; split <;> rfl
@[simp] theorem getBasis_scratch (C : Collab) (s : State) : (getBasis C s).scratch = s.scratch :=
  by unfold getBasis; split <;> rfl
@[simp] theorem getBasis_mem (C : Collab) (s : State) : (getBasis C s).mem = s.mem :=
  by unfold getBasis; split <;> rfl
@[simp] theorem getBasis_st (C : Collab) (s : State) : (getBasis C s).st = s.st := by unfold getBasis; split <;> rfl
@[simp] theorem getBasis_genPort (C : Collab) (s : State) : (getBasis C s).genPort = s.genPort :=
  by unfold getBasis; split <;> rfl
@[simp] theorem getBasis_sampPort (C : Collab) (s : State) : (getBasis C s).sampPort = s.sampPort :=
  by unfold getBasis; split <;> rfl
@[simp] theorem getBasis_silent (C : Collab) (s : State) : (getBasis C s).silent = s.silent :=
  by unfold getBasis; split <;> rfl
@[simp] theorem getBasis_turn (C : Collab) (s : State) : (getBasis C s).turn = s.turn :=
  by unfold getBasis; split <;> rfl
@[simp] theorem getBasis_inbox (C : Collab) (s : State) : (getBasis C s).inbox = s.inbox :=
  by unfold getBasis; split <;> rfl
@[simp] theorem getBasis_rdata (C : Collab) (s : State) : (getBasis C s).rdata = s.rdata :=
  by unfold getBasis; split <;> rfl
@[simp] theorem getBasis_shown (C : Collab) (s : State) : (getBasis C s).shown = s.shown :=
  by unfold getBasis; split <;> rfl

/-! ### releaseBasis -/

@[simp] theorem releaseBasis_build (s : State) : (releaseBasis s).build = s.build :=
  by unfold releaseBasis; split <;> rfl
@[simp] theorem releaseBasis_cfg0 (s : State) : (releaseBasis s).cfg0 = s.cfg0 :=
  by unfold releaseBasis; split <;> rfl
@[simp] theorem releaseBasis_cfg1 (s : State) : (releaseBasis s).cfg1 = s.cfg1 :=
  by unfold releaseBasis; split <;> rfl
@[simp] theorem releaseBasis_curCmd (s : State) : (releaseBasis s).curCmd = s.curCmd :=
  by unfold releaseBasis; split <;> rfl
@[simp] theorem releaseBasis_status (s : State) : (releaseBasis s).status = s.status :=
  by unfold releaseBasis; split <;> rfl
@[simp] theorem releaseBasis_ie (s : State) : (releaseBasis s).ie = s.ie := by unfold releaseBasis; split <;> rfl
@[simp] theorem releaseBasis_msgLen (s : State) : (releaseBasis s).msgLen = s.msgLen :=
  by unfold releaseBasis; split <;> rfl
@[simp] theorem releaseBasis_sigLen (s : State) : (releaseBasis s).sigLen = s.sigLen :=
  by unfold releaseBasis; split <;> rfl
@[simp] theorem releaseBasis_pkLen (s : State) : (releaseBasis s).pkLen = s.pkLen :=
  by unfold releaseBasis; split <;> rfl
@[simp] theorem releaseBasis_skLen (s : State) : (releaseBasis s).skLen = s.skLen :=
  by unfold releaseBasis; split <;> rfl
@[simp] theorem releaseBasis_kgAttempts (s : State) : (releaseBasis s).kgAttempts = s.kgAttempts :=
  by unfold releaseBasis; split <;> rfl
@[simp] theorem releaseBasis_verifiedCnt (s : State) : (releaseBasis s).verifiedCnt = s.verifiedCnt :=
  by unfold releaseBasis; split <;> rfl
@[simp] theorem releaseBasis_unverifiedCnt (s : State) : (releaseBasis s).unverifiedCnt = s.unverifiedCnt :=
  by unfold releaseBasis; split <;> rfl
@[simp] theorem releaseBasis_acfg (s : State) : (releaseBasis s).acfg = s.acfg :=
  by unfold releaseBasis; split <;> rfl
@[simp] theorem releaseBasis_sk (s : State) : (releaseBasis s).sk = s.sk := by unfold releaseBasis; split <;> rfl
@[simp] theorem releaseBasis_pk (s : State) : (releaseBasis s).pk = s.pk := by unfold releaseBasis; split <;> rfl
@[simp] theorem releaseBasis_pkNtt (s : State) : (releaseBasis s).pkNtt = s.pkNtt :=
  by unfold releaseBasis; split <;> rfl
@[simp] theorem releaseBasis_basis (s : State) : (releaseBasis s).basis = s.basis :=
  by unfold releaseBasis; split <;> rfl
@[simp] theorem releaseBasis_tbasis (s : State) : (releaseBasis s).tbasis = if s.acfg.keep then s.tbasis else Basis.zero :=
  by unfold releaseBasis; split <;> rfl
@[simp] theorem releaseBasis_scratch (s : State) : (releaseBasis s).scratch = s.scratch :=
  by unfold releaseBasis; split <;> rfl
@[simp] theorem releaseBasis_mem (s : State) : (releaseBasis s).mem = s.mem := by unfold releaseBasis; split <;> rfl
@[simp] theorem releaseBasis_st (s : State) : (releaseBasis s).st = s.st := by unfold releaseBasis; split <;> rfl
@[simp] theorem releaseBasis_genPort (s : State) : (releaseBasis s).genPort = s.genPort :=
  by unfold releaseBasis; split <;> rfl
@[simp] theorem releaseBasis_sampPort (s : State) : (releaseBasis s).sampPort = s.sampPort :=
  by unfold releaseBasis; split <;> rfl
@[simp] theorem releaseBasis_silent (s : State) : (releaseBasis s).silent = s.silent :=
  by unfold releaseBasis; split <;> rfl
@[simp] theorem releaseBasis_turn (s : State) : (releaseBasis s).turn = s.turn :=
  by unfold releaseBasis; split <;> rfl
@[simp] theorem releaseBasis_inbox (s : State) : (releaseBasis s).inbox = s.inbox :=
  by unfold releaseBasis; split <;> rfl
@[simp] theorem releaseBasis_rdata (s : State) : (releaseBasis s).rdata = s.rdata :=
  by unfold releaseBasis; split <;> rfl
@[simp] theorem releaseBasis_shown (s : State) : (releaseBasis s).shown = s.shown :=
  by unfold releaseBasis; split <;> rfl

/-! ### holdBasis -/

@[simp] theorem holdBasis_build (bas : Basis) (s : State) : (holdBasis bas s).build = s.build :=
  by unfold holdBasis; split <;> rfl
@[simp] theorem holdBasis_cfg0 (bas : Basis) (s : State) : (holdBasis bas s).cfg0 = s.cfg0 :=
  by unfold holdBasis; split <;> rfl
@[simp] theorem holdBasis_cfg1 (bas : Basis) (s : State) : (holdBasis bas s).cfg1 = s.cfg1 :=
  by unfold holdBasis; split <;> rfl
@[simp] theorem holdBasis_curCmd (bas : Basis) (s : State) : (holdBasis bas s).curCmd = s.curCmd :=
  by unfold holdBasis; split <;> rfl
@[simp] theorem holdBasis_status (bas : Basis) (s : State) : (holdBasis bas s).status = s.status :=
  by unfold holdBasis; split <;> rfl
@[simp] theorem holdBasis_ie (bas : Basis) (s : State) : (holdBasis bas s).ie = s.ie :=
  by unfold holdBasis; split <;> rfl
@[simp] theorem holdBasis_msgLen (bas : Basis) (s : State) : (holdBasis bas s).msgLen = s.msgLen :=
  by unfold holdBasis; split <;> rfl
@[simp] theorem holdBasis_sigLen (bas : Basis) (s : State) : (holdBasis bas s).sigLen = s.sigLen :=
  by unfold holdBasis; split <;> rfl
@[simp] theorem holdBasis_pkLen (bas : Basis) (s : State) : (holdBasis bas s).pkLen = s.pkLen :=
  by unfold holdBasis; split <;> rfl
@[simp] theorem holdBasis_skLen (bas : Basis) (s : State) : (holdBasis bas s).skLen = s.skLen :=
  by unfold holdBasis; split <;> rfl
@[simp] theorem holdBasis_kgAttempts (bas : Basis) (s : State) : (holdBasis bas s).kgAttempts = s.kgAttempts :=
  by unfold holdBasis; split <;> rfl
@[simp] theorem holdBasis_verifiedCnt (bas : Basis) (s : State) : (holdBasis bas s).verifiedCnt = s.verifiedCnt :=
  by unfold holdBasis; split <;> rfl
@[simp] theorem holdBasis_unverifiedCnt (bas : Basis) (s : State) : (holdBasis bas s).unverifiedCnt = s.unverifiedCnt :=
  by unfold holdBasis; split <;> rfl
@[simp] theorem holdBasis_acfg (bas : Basis) (s : State) : (holdBasis bas s).acfg = s.acfg :=
  by unfold holdBasis; split <;> rfl
@[simp] theorem holdBasis_sk (bas : Basis) (s : State) : (holdBasis bas s).sk = s.sk :=
  by unfold holdBasis; split <;> rfl
@[simp] theorem holdBasis_pk (bas : Basis) (s : State) : (holdBasis bas s).pk = s.pk :=
  by unfold holdBasis; split <;> rfl
@[simp] theorem holdBasis_pkNtt (bas : Basis) (s : State) : (holdBasis bas s).pkNtt = s.pkNtt :=
  by unfold holdBasis; split <;> rfl
@[simp] theorem holdBasis_basis (bas : Basis) (s : State) : (holdBasis bas s).basis = if s.acfg.keep then bas else s.basis :=
  by unfold holdBasis; split <;> rfl
@[simp] theorem holdBasis_tbasis (bas : Basis) (s : State) : (holdBasis bas s).tbasis = if s.acfg.keep then s.tbasis else bas :=
  by unfold holdBasis; split <;> rfl
@[simp] theorem holdBasis_scratch (bas : Basis) (s : State) : (holdBasis bas s).scratch = s.scratch :=
  by unfold holdBasis; split <;> rfl
@[simp] theorem holdBasis_mem (bas : Basis) (s : State) : (holdBasis bas s).mem = s.mem :=
  by unfold holdBasis; split <;> rfl
@[simp] theorem holdBasis_st (bas : Basis) (s : State) : (holdBasis bas s).st = s.st :=
  by unfold holdBasis; split <;> rfl
@[simp] theorem holdBasis_genPort (bas : Basis) (s : State) : (holdBasis bas s).genPort = s.genPort :=
  by unfold holdBasis; split <;> rfl
@[simp] theorem holdBasis_sampPort (bas : Basis) (s : State) : (holdBasis bas s).sampPort = s.sampPort :=
  by unfold holdBasis; split <;> rfl
@[simp] theorem holdBasis_silent (bas : Basis) (s : State) : (holdBasis bas s).silent = s.silent :=
  by unfold holdBasis; split <;> rfl
@[simp] theorem holdBasis_turn (bas : Basis) (s : State) : (holdBasis bas s).turn = s.turn :=
  by unfold holdBasis; split <;> rfl
@[simp] theorem holdBasis_inbox (bas : Basis) (s : State) : (holdBasis bas s).inbox = s.inbox :=
  by unfold holdBasis; split <;> rfl
@[simp] theorem holdBasis_rdata (bas : Basis) (s : State) : (holdBasis bas s).rdata = s.rdata :=
  by unfold holdBasis; split <;> rfl
@[simp] theorem holdBasis_shown (bas : Basis) (s : State) : (holdBasis bas s).shown = s.shown :=
  by unfold holdBasis; split <;> rfl

/-! ### The active parameter set -/

/-- The active set depends on the build and on ACFG alone (R25). -/
theorem ps_congr {s t : State} (hb : t.build = s.build) (ha : t.acfg = s.acfg) : t.ps = s.ps := by
  simp only [State.ps, hb, ha]

@[simp] theorem startCommand_ps (w : Word) (s : State) : (startCommand w s).ps = s.ps :=
  ps_congr (startCommand_build ..) (startCommand_acfg ..)
@[simp] theorem finishOk_ps (s : State) : (finishOk s).ps = s.ps :=
  ps_congr (finishOk_build ..) (finishOk_acfg ..)
@[simp] theorem raiseError_ps (e : ErrCode) (s : State) : (raiseError e s).ps = s.ps :=
  ps_congr (raiseError_build ..) (raiseError_acfg ..)
@[simp] theorem accept_ps (s : State) : (accept s).ps = s.ps :=
  ps_congr (accept_build ..) (accept_acfg ..)
@[simp] theorem reject_ps (s : State) : (reject s).ps = s.ps :=
  ps_congr (reject_build ..) (reject_acfg ..)
@[simp] theorem endCommand_ps (s : State) : (endCommand s).ps = s.ps :=
  ps_congr (endCommand_build ..) (endCommand_acfg ..)
@[simp] theorem busError_ps (s : State) : (busError s).ps = s.ps :=
  ps_congr (busError_build ..) (busError_acfg ..)
@[simp] theorem kgRestart_ps (s : State) : (kgRestart s).ps = s.ps :=
  ps_congr (kgRestart_build ..) (kgRestart_acfg ..)
@[simp] theorem installKey_ps (C : Collab) (s : State) : (installKey C s).ps = s.ps :=
  ps_congr (installKey_build ..) (installKey_acfg ..)
@[simp] theorem invalidateBasis_ps (s : State) : (invalidateBasis s).ps = s.ps :=
  ps_congr (invalidateBasis_build ..) (invalidateBasis_acfg ..)
@[simp] theorem scratchPut_ps (slot : Slot) (v : List Int) (s : State) : (scratchPut slot v s).ps = s.ps :=
  ps_congr (scratchPut_build ..) (scratchPut_acfg ..)
@[simp] theorem putCandidate_ps (c : Candidate) (s : State) : (putCandidate c s).ps = s.ps :=
  ps_congr (putCandidate_build ..) (putCandidate_acfg ..)
@[simp] theorem receive_ps (s : State) : (receive s).ps = s.ps :=
  ps_congr (receive_build ..) (receive_acfg ..)
@[simp] theorem windowStore_ps (win : Window) (bytes : List Byte) (s : State) : (windowStore win bytes s).ps = s.ps :=
  ps_congr (windowStore_build ..) (windowStore_acfg ..)
@[simp] theorem getBasis_ps (C : Collab) (s : State) : (getBasis C s).ps = s.ps :=
  ps_congr (getBasis_build ..) (getBasis_acfg ..)
@[simp] theorem releaseBasis_ps (s : State) : (releaseBasis s).ps = s.ps :=
  ps_congr (releaseBasis_build ..) (releaseBasis_acfg ..)
@[simp] theorem holdBasis_ps (bas : Basis) (s : State) : (holdBasis bas s).ps = s.ps :=
  ps_congr (holdBasis_build ..) (holdBasis_acfg ..)

/-! ### window lengths -/

@[simp] theorem windowLen_windowStore (win : Window) (bytes : List Byte) (s : State) :
    windowLen (windowStore win bytes s) win = BitVec.ofNat 32 bytes.length := by cases win <;> rfl

/-- A window store leaves the other length registers alone. -/
theorem windowLen_windowStore_ne {win win' : Window} (h : win' ≠ win) (bytes : List Byte) (s : State) :
    windowLen (windowStore win bytes s) win' = windowLen s win' := by
  cases win <;> cases win' <;> first | rfl | exact absurd rfl h

end Sys2Proof.Machine
end

