-- ==== Sys2Proof/Laws/Bus.lean ====
section
/-! SUPPORT. What an address reaches, and the access that follows: one lemma per register and per kind of target. -/

namespace Sys2Proof.Machine

/-- Only the word of an address counts (R37). -/
theorem busTarget_congr (b : Build) {a a' : BusAddr} (h : a.toNat / 4 = a'.toNat / 4) :
    busTarget b a = busTarget b a' := by
  have h1 : (a.toNat < 0x10000) = (a'.toNat < 0x10000) := propext (by omega)
  have h2 : a.toNat / 0x10000 = a'.toNat / 0x10000 := by omega
  unfold busTarget
  simp only [h, h1, h2]

/-- An address below 0x68 reaches the register of its word (R14, R38). -/
theorem busTarget_reg (b : Build) {a : BusAddr} {r : Reg} (h : regTable[a.toNat / 4]? = some r) :
    busTarget b a = .reg r := by
  have hlt : a.toNat / 4 < regTable.length := by
    by_contra hc
    rw [List.getElem?_eq_none (by omega)] at h
    cases h
  have hl : regTable.length = 26 := rfl
  unfold busTarget
  rw [if_pos (by omega)]
  simp only [h]

/-- Between the registers and the windows nothing is reached (R38). -/
theorem busTarget_reserved (b : Build) {a : BusAddr} (h1 : 0x68 ≤ a.toNat) (h2 : a.toNat < 0x10000) :
    busTarget b a = .nothing := by
  have hl : regTable.length = 26 := rfl
  unfold busTarget
  rw [if_pos h2]
  simp only [List.getElem?_eq_none (show regTable.length ≤ a.toNat / 4 by omega)]

/-- A word inside a window's buffer reaches it (R38, R39). -/
theorem busTarget_buffer {b : Build} {a : BusAddr} {win : Window} (hcap : windowCap b win ≤ 0x10000)
    (h1 : windowBase win ≤ a.toNat / 4 * 4) (h2 : a.toNat / 4 * 4 < windowBase win + windowCap b win) :
    busTarget b a = .buffer win (a.toNat / 4 * 4 - windowBase win) := by
  have hp : windowOfPage (a.toNat / 0x10000) = some win := by
    cases win <;> simp only [windowBase] at h1 h2
    · rw [show a.toNat / 0x10000 = 1 by omega]; rfl
    · rw [show a.toNat / 0x10000 = 2 by omega]; rfl
    · rw [show a.toNat / 0x10000 = 3 by omega]; rfl
    · rw [show a.toNat / 0x10000 = 4 by omega]; rfl
  have hge : ¬a.toNat < 0x10000 := by cases win <;> simp only [windowBase] at h1 <;> omega
  have e : 4 * (a.toNat / 4) = a.toNat / 4 * 4 := by omega
  unfold busTarget
  rw [if_neg hge]
  simp only [hp, e]
  rw [if_pos (by omega)]

/-- An address outside the registers and the buffers reaches nothing (R38, R39). -/
theorem busTarget_nothing {b : Build} {a : BusAddr} (h0 : 0x68 ≤ a.toNat)
    (h : ∀ win, ¬(windowBase win ≤ a.toNat / 4 * 4 ∧ a.toNat / 4 * 4 < windowBase win + windowCap b win)) :
    busTarget b a = .nothing := by
  by_cases h2 : a.toNat < 0x10000
  · exact busTarget_reserved b h0 h2
  have e : 4 * (a.toNat / 4) = a.toNat / 4 * 4 := by omega
  unfold busTarget
  rw [if_neg h2]
  cases hp : windowOfPage (a.toNat / 0x10000) with
  | none => rfl
  | some win =>
    have hb : windowBase win ≤ a.toNat / 4 * 4 := by
      unfold windowOfPage at hp
      split at hp <;> cases hp <;> simp only [windowBase] <;> omega
    simp only [e]
    rw [if_neg fun hc => h win ⟨hb, by omega⟩]

/-- The four capacities of a build that meets its constraints (R39). -/
theorem windowCap_ok {b : Build} (h : b.wf = true) (win : Window) : capOk (windowCap b win) = true := by
  simp only [Build.wf, Bool.and_eq_true] at h
  cases win <;> tauto

theorem windowCap_le {b : Build} (h : b.wf = true) (win : Window) : windowCap b win ≤ 0x10000 := by
  have := windowCap_ok h win
  simp only [capOk, Bool.and_eq_true, decide_eq_true_eq] at this
  omega

theorem windowCap_mod {b : Build} (h : b.wf = true) (win : Window) : windowCap b win % 4 = 0 := by
  have := windowCap_ok h win
  simp only [capOk, Bool.and_eq_true, decide_eq_true_eq] at this
  omega

/-- An access to a register (R14, R37). -/
theorem busWrite_reg {a : BusAddr} {r : Reg} (h : regTable[a.toNat / 4]? = some r) (d : Word) (be : ByteEnables)
    (s : State) : busWrite a d be s = writeReg r d be s := by simp only [busWrite, busTarget_reg s.build h]

theorem busReadData_reg {a : BusAddr} {r : Reg} (h : regTable[a.toNat / 4]? = some r) (s : State) :
    busReadData a s = readReg (hostView s) r := by simp only [busReadData, busTarget_reg s.build h]

theorem busRead_reg {a : BusAddr} {r : Reg} (h : regTable[a.toNat / 4]? = some r) (s : State) :
    busRead a s = { s with rdata := readReg (hostView s) r } := by
  simp only [busRead, busReadEffect, busReadData, busTarget_reg s.build h]

/-- An access that reaches nothing (R38, R39). -/
theorem busWrite_nothing {a : BusAddr} {s : State} (h : busTarget s.build a = .nothing) (d : Word)
    (be : ByteEnables) : busWrite a d be s = s := by simp only [busWrite, h]

theorem busRead_nothing {a : BusAddr} {s : State} (h : busTarget s.build a = .nothing) :
    busReadData a s = 0 ∧ busRead a s = { s with rdata := 0 } := by
  simp only [busRead, busReadEffect, busReadData, h, and_self]

/-- An access to a window's buffer (R39, R40, R42). -/
theorem busWrite_buffer {a : BusAddr} {s : State} {win : Window} {off : Nat}
    (h : busTarget s.build a = .buffer win off) (d : Word) (be : ByteEnables) :
    busWrite a d be s =
      unlessBusy s { s with mem := writeBufferWord (windowBase win + off) d be s.mem } := by
  simp only [busWrite, h]

theorem busRead_buffer {a : BusAddr} {s : State} {win : Window} {off : Nat}
    (h : busTarget s.build a = .buffer win off) :
    busReadData a s = (if s.status.busy then 0 else readBufferWord s.mem (windowBase win + off))
      ∧ busRead a s =
        { unlessBusy s s with
          rdata := if s.status.busy then 0 else readBufferWord s.mem (windowBase win + off) } := by
  simp only [busRead, busReadEffect, busReadData, h, and_self]

/-- While no command runs the registers read as they are. -/
theorem hostView_idle {s : State} (h : s.status.busy = false) : hostView s = s := by simp [hostView, h]

/-- What any access can do: a write to a register, a write to a buffer, or nothing. -/
theorem busWrite_cases (a : BusAddr) (d : Word) (be : ByteEnables) (s : State) :
    (∃ r, busWrite a d be s = writeReg r d be s)
      ∨ (∃ addr, busWrite a d be s = unlessBusy s { s with mem := writeBufferWord addr d be s.mem })
      ∨ busWrite a d be s = s := by
  cases h : busTarget s.build a with
  | reg r => exact .inl ⟨r, by simp only [busWrite, h]⟩
  | buffer win off => exact .inr (.inl ⟨_, busWrite_buffer h d be⟩)
  | nothing => exact .inr (.inr (busWrite_nothing h d be))

/-- A read changes at most BUSERR and the word the host holds (R41). -/
theorem busRead_cases (a : BusAddr) (s : State) :
    ∃ v, busRead a s = { s with rdata := v } ∨ busRead a s = { busError s with rdata := v } := by
  cases h : busTarget s.build a with
  | reg r => exact ⟨readReg (hostView s) r, .inl (by simp only [busRead, busReadEffect, busReadData, h])⟩
  | nothing => exact ⟨0, .inl (busRead_nothing h).2⟩
  | buffer win off =>
    refine ⟨if s.status.busy then 0 else readBufferWord s.mem (windowBase win + off), ?_⟩
    rw [(busRead_buffer h).2]
    unfold unlessBusy
    split
    · exact .inr rfl
    · exact .inl rfl

end Sys2Proof.Machine
end

