-- ==== Sys2Proof/Laws/Command.lean ====
section
/-! SUPPORT. What the run of a command can do: `exec` as one shape for every command, the unrolling of its transitions, the
DISPATCH state and the ends of a command. -/

namespace Sys2Proof.Machine

/-- Every meaning is the run of its command's transitions. -/
theorem exec_eq_runCommand (i : Instr) (s : State) :
    exec i s = runCommand Config.collab i (transition Config.collab i) s := by
  cases i <;> rfl

/-- A meaning that answers next does so from a state on the command's path, with the end of its transitions. -/
theorem runCommand_next {C : Collab} {i : Instr} {tr : State → State} {s t : State} (h : runCommand C i tr s = .next t) :
    onPath i s = true ∧ t = runSteps (whenAnswered C i tr) (enoughSteps s) s := by
  unfold runCommand at h
  split at h
  · exact ⟨‹_›, by cases h; rfl⟩
  · cases h

/-- A meaning never refuses, and faults only off the command's path. -/
theorem runCommand_cases (C : Collab) (i : Instr) (tr : State → State) (s : State) :
    (onPath i s = true ∧ runCommand C i tr s = .next (runSteps (whenAnswered C i tr) (enoughSteps s) s))
      ∨ (onPath i s = false ∧ runCommand C i tr s = .fault .offPath) := by
  unfold runCommand
  cases h : onPath i s <;> simp

/-- A transition is made, or the command waits as it is. -/
theorem whenAnswered_cases (C : Collab) (i : Instr) (tr : State → State) (s : State) :
    whenAnswered C i tr s = s ∨ whenAnswered C i tr s = tr s := by
  unfold whenAnswered
  split
  · exact .inl rfl
  · exact .inr rfl

/-- Where the collaborators answer, the transition is made. -/
theorem whenAnswered_of_silent {C : Collab} {i : Instr} {tr : State → State} {s : State} (h : s.silent = []) :
    whenAnswered C i tr s = tr s := by simp [whenAnswered, unanswered, h]

/-- A command waits where its call gets no answer (R48). -/
theorem whenAnswered_waits {C : Collab} {i : Instr} {tr : State → State} {s : State} (h : callsCollaborator C i s = true)
    (hs : s.st ∈ s.silent) : whenAnswered C i tr s = s := by simp [whenAnswered, unanswered, h, hs]

/-- A state that calls no collaborator makes its transition. -/
theorem whenAnswered_of_no_call {C : Collab} {i : Instr} {tr : State → State} {s : State} (h : callsCollaborator C i s = false) :
    whenAnswered C i tr s = tr s := by simp [whenAnswered, unanswered, h]

/-- DISPATCH and FINISH call no collaborator. -/
theorem whenAnswered_ends {C : Collab} {i : Instr} {tr : State → State} {s : State} (h : s.st = .dispatch ∨ s.st = .finish) :
    whenAnswered C i tr s = tr s :=
  whenAnswered_of_no_call (by rcases h with h | h <;> simp [callsCollaborator, h])

/-- CONFIGURE, DESTROY and STORE_PK call no collaborator on their paths. -/
theorem noCalls {C : Collab} {i : Instr} {s : State} (hi : i ∈ [Instr.configure, .destroy, .storePk]) (h : s.st ∈ commandPath i) :
    callsCollaborator C i s = false := by
  simp only [List.mem_cons, List.not_mem_nil, or_false] at hi
  rcases hi with rfl | rfl | rfl <;> simp only [commandPath, List.mem_cons, List.not_mem_nil, or_false] at h <;>
    rcases h with h | h | h <;> simp [callsCollaborator, h]

/-- DISPATCH is on every path. -/
theorem onPath_dispatch {i : Instr} {s : State} (hb : s.status.busy = true) (hst : s.st = .dispatch) :
    onPath i s = true := by cases i <;> simp [onPath, commandPath, hb, hst]

/-- FINISH is on every path. -/
theorem onPath_finish {i : Instr} {s : State} (hb : s.status.busy = true) (hst : s.st = .finish) :
    onPath i s = true := by cases i <;> simp [onPath, commandPath, hb, hst]

theorem runSteps_idle {tr : State → State} {s : State} (h : s.status.busy = false) (n : Nat) :
    runSteps tr n s = s := by cases n <;> simp [runSteps, h]

theorem runSteps_busy {tr : State → State} {s : State} (h : s.status.busy = true) (n : Nat) :
    runSteps tr (n + 1) s = runSteps tr n (tr s) := by simp [runSteps, h]

/-- A command that waits stays as it is. -/
theorem runSteps_fixed {tr : State → State} {s : State} (h : tr s = s) (n : Nat) : runSteps tr n s = s := by
  induction n with
  | zero => rfl
  | succ n ih => simp only [runSteps, h, ih, ite_self]

/-- Runs add up. -/
theorem runSteps_add (tr : State → State) (m n : Nat) (s : State) :
    runSteps tr (m + n) s = runSteps tr n (runSteps tr m s) := by
  induction m generalizing s with
  | zero => simp [runSteps]
  | succ m ih =>
    rw [Nat.succ_add]
    cases hb : s.status.busy
    · rw [runSteps_idle hb, runSteps_idle hb, runSteps_idle hb]
    · rw [runSteps_busy hb, runSteps_busy hb, ih]

/-- What every step of the command keeps, its run keeps. -/
theorem runSteps_keeps {tr : State → State} {P : State → Prop}
    (h : ∀ s, s.status.busy = true → P s → P (tr s)) (n : Nat) {s : State} (hs : P s) : P (runSteps tr n s) := by
  induction n generalizing s with
  | zero => exact hs
  | succ n ih =>
    unfold runSteps
    split
    · exact ih (h s ‹_› hs)
    · exact hs

/-- In DISPATCH the checks decide (R35, R122). -/
theorem dispatchStep_error {i : Instr} {first : Fsm} {s : State} {e : ErrCode} (h : dispatchError i s = some e) :
    dispatchStep i first s = raiseError e s := by simp [dispatchStep, h]

theorem dispatchStep_ok {i : Instr} {first : Fsm} {s : State} (h : dispatchError i s = none) :
    dispatchStep i first s = { s with st := first } := by simp [dispatchStep, h]

/-- Every command's transition in DISPATCH is `dispatchStep` to the first state of its rule. -/
theorem transition_dispatch (C : Collab) (i : Instr) {s : State} (h : s.st = .dispatch) :
    ∃ first, transition C i s = dispatchStep i first s := by
  cases i <;> simp only [transition, configureStep, destroyStep, keygenStep, loadSkStep, loadPkStep, storeSkStep,
    storePkStep, signStep, signRecStep, verifyStep, verifyRecStep, h] <;> exact ⟨_, rfl⟩

/-- Every command's transition in FINISH is the ending sequence (R124); DESTROY's also clears CUR_CMD (R85). -/
theorem transition_finish (C : Collab) (i : Instr) {s : State} (h : s.st = .finish) :
    transition C i s = { endCommand s with curCmd := if i = .destroy then 0 else s.curCmd } := by
  cases i <;> simp only [transition, configureStep, destroyStep, keygenStep, loadSkStep, loadPkStep, storeSkStep,
    storePkStep, signStep, signRecStep, verifyStep, verifyRecStep, h] <;> rfl

/-- From FINISH a run of any length ends the command. -/
theorem runSteps_finish (C : Collab) (i : Instr) {s : State} (hb : s.status.busy = true) (h : s.st = .finish)
    (n : Nat) : runSteps (transition C i) (n + 1) s
      = { endCommand s with curCmd := if i = .destroy then 0 else s.curCmd } := by
  rw [runSteps_busy hb, transition_finish C i h, runSteps_idle rfl]

/-- The number of steps a run is given is at least eight. -/
theorem enoughSteps_eq (s : State) : enoughSteps s = (4 * s.genPort.length) + 8 := by
  unfold enoughSteps
  omega

/-- One step is taken as the present arrival and BUSY say: these are all the cases (R44). -/
theorem step_cases (s : State) :
    (s.status.busy = false ∧ s.inbox = [] ∧ step s = .next s)
      ∨ (s.status.busy = true ∧ step s = runCurrent (receive s) ∧ (s.inbox = [] ∨ ∃ e r, s.inbox = ⟨none, e⟩ :: r))
      ∨ (∃ a r, s.inbox = a :: r ∧ (s.status.busy = false ∨ a.during = some 0)
          ∧ step s = .next (hostEvent a.event { s with inbox := r }))
      ∨ (s.status.busy = true ∧ ∃ k e r, s.inbox = ⟨some (k + 1), e⟩ :: r
          ∧ step s = advanceCurrent (receive { s with inbox := ⟨some k, e⟩ :: r })) := by
  unfold step
  cases hb : s.status.busy
  · cases hi : s.inbox with
    | nil => simp
    | cons a r => simp
  · cases hi : s.inbox with
    | nil => simp
    | cons a r =>
      obtain ⟨d, e⟩ := a
      cases d with
      | none => simp
      | some k => cases k <;> simp

end Sys2Proof.Machine
end

