-- ==== Sys2Proof/Laws/Fuel.lean ====
section
/-! SUPPORT. The number of transitions a run is given is enough: a run with more answers the same, since by then the command
has ended or waits. -/

namespace Sys2Proof.Machine

/-- How many transitions a command can still make before its last one: a rank of its states on its path, with four for
every generator answer still to come. -/
def remaining (i : Instr) (s : State) : Nat :=
  match s.st with
  | .dispatch => 4 * s.genPort.length + 7
  | .kgGenerate => 4 * s.genPort.length + 2
  | .kgBasis => 4 * s.genPort.length + 5
  | .kgSample => 4 * s.genPort.length + 4
  | .kgTest => 4 * s.genPort.length + 3
  | .vfDecode => 6
  | .vfOracle => 5
  | .vfNorm => if i = .verify then 1 else 5
  | .sgOracle => 5
  | .sgBasis | .vfRecon => 4
  | .sgSample | .vfRecover => 3
  | .sgEncode | .vfMerge | .kyDecode => 2
  | .kgCommit | .kyBasis | .kyEncode | .cfValidate | .cfTeardown | .sgCompact | .vfTag => 1
  | .unconfigured | .ready | .finish => 0

theorem remaining_lt (i : Instr) (s : State) : remaining i s < enoughSteps s := by
  unfold remaining enoughSteps
  split <;> (try split) <;> omega

/-- A failed check leads to FINISH. -/
theorem remaining_raiseError (i : Instr) (e : ErrCode) (s : State) : remaining i (raiseError e s) = 0 := rfl

theorem remaining_finishOk (i : Instr) (s : State) : remaining i (finishOk s) = 0 := rfl

theorem remaining_dispatchStep {i : Instr} {first : Fsm} {s : State} (h : s.st = .dispatch)
    (hf : remaining i { s with st := first } < 4 * s.genPort.length + 7) :
    remaining i (dispatchStep i first s) < remaining i s := by
  have hd : remaining i s = 4 * s.genPort.length + 7 := by simp only [remaining, h]
  rw [hd]
  unfold dispatchStep
  split
  · rw [remaining_raiseError]
    omega
  · exact hf

/-- Every transition of a running command ends it, leaves it waiting as it is, or brings it nearer its end. -/
theorem transition_progress (C : Collab) (i : Instr) (s : State) :
    (transition C i s).status.busy = false ∨ transition C i s = s
      ∨ remaining i (transition C i s) < remaining i s := by
  cases hst : s.st
  case dispatch =>
    refine .inr (.inr ?_)
    cases i <;> simp only [transition, configureStep, destroyStep, keygenStep, loadSkStep, loadPkStep, storeSkStep,
      storePkStep, signStep, signRecStep, verifyStep, verifyRecStep, hst] <;>
      exact remaining_dispatchStep hst (by simp [remaining])
  case finish => exact .inl (by rw [transition_finish C i hst]; rfl)
  all_goals
    cases i <;> simp only [transition, configureStep, destroyStep, keygenStep, loadSkStep, loadPkStep, storeSkStep,
      storePkStep, signStep, signRecStep, verifyStep, verifyRecStep, hst] <;>
      first
        | exact .inr (.inl trivial)
        | skip
  all_goals
    right
    try simp only [cfValidateStep, kgGenerateStep, kgBasisStep, kgSampleStep, kgTestStep, kgRestart, loadSkDecodeStep,
      loadPkDecodeStep, storeSkEncodeStep, kgCommitStep, signOracleStep, signRecOracleStep, signBasisStep,
      signSampleStep, signFail, signEncodeStep, signCompactStep, verifyDecodeStep, verifyOracleStep, verifyNormStep,
      verifyRecDecodeStep, verifyRecNormStep, verifyReconStep, verifyRecoverStep, verifyMergeStep, verifyTagStep,
      rejectRec]
    repeat' split
  all_goals
    first
      | exact .inl rfl
      | (exfalso; simp_all; done)
      | (right; simp [remaining, *]; done)
      | (right; simp [remaining, *]; omega)

/-- DISPATCH leads to the first state of the rule or to FINISH. -/
theorem dispatchStep_st (i : Instr) (first : Fsm) (s : State) :
    (dispatchStep i first s).st = first ∨ (dispatchStep i first s).st = .finish := by
  unfold dispatchStep
  split
  · exact .inr rfl
  · exact .inl rfl

/-- A transition changes BUSY only in FINISH. -/
theorem transition_busy (C : Collab) (i : Instr) (s : State) (h : s.st ≠ .finish) :
    (transition C i s).status.busy = s.status.busy := by
  cases i <;> simp only [transition, configureStep, destroyStep, keygenStep, loadSkStep, loadPkStep, storeSkStep,
      storePkStep, signStep, signRecStep, verifyStep, verifyRecStep] <;> split
  all_goals first | contradiction | rfl | skip
  all_goals
    try simp only [dispatchStep, cfValidateStep, kgGenerateStep, kgBasisStep, kgSampleStep, kgTestStep, kgCommitStep,
      loadSkDecodeStep, loadPkDecodeStep, storeSkEncodeStep, signBasisStep,
      signSampleStep, signFail, signEncodeStep, verifyDecodeStep, verifyNormStep,
      verifyRecDecodeStep, verifyRecNormStep, verifyRecoverStep, verifyMergeStep, verifyTagStep,
      rejectRec]
    repeat' split
  all_goals first | rfl | simp

/-- No transition touches the collaborators' answers still to come to the deterministic calls, nor what the host is shown
before the command's end. -/
theorem transition_keeps (C : Collab) (i : Instr) (s : State) :
    (transition C i s).silent = s.silent ∧ (transition C i s).turn = s.turn
      ∧ (s.st ≠ .finish → (transition C i s).curCmd = s.curCmd ∧ (transition C i s).shown = s.shown) := by
  by_cases hf : s.st = .finish
  · rw [transition_finish C i hf]
    exact ⟨rfl, rfl, fun h => absurd hf h⟩
  cases i <;> simp only [transition, configureStep, destroyStep, keygenStep, loadSkStep, loadPkStep, storeSkStep,
      storePkStep, signStep, signRecStep, verifyStep, verifyRecStep] <;> split
  all_goals first | contradiction | exact ⟨rfl, rfl, fun _ => ⟨rfl, rfl⟩⟩ | skip
  all_goals
    try simp only [dispatchStep, cfValidateStep, kgGenerateStep, kgBasisStep, kgSampleStep, kgTestStep,
      loadSkDecodeStep, loadPkDecodeStep, storeSkEncodeStep, signBasisStep,
      signSampleStep, signFail, signEncodeStep, verifyDecodeStep, verifyNormStep,
      verifyRecDecodeStep, verifyRecNormStep, verifyRecoverStep, verifyMergeStep, verifyTagStep]
    repeat' split
  all_goals first | exact ⟨rfl, rfl, fun _ => ⟨rfl, rfl⟩⟩ | simp

/-- A running command stays on its path (R34, R55). -/
theorem transition_path (C : Collab) (i : Instr) (s : State) (h : s.st ∈ commandPath i) (hf : s.st ≠ .finish) :
    (transition C i s).st ∈ commandPath i := by
  cases i <;> simp only [commandPath, List.mem_cons, List.not_mem_nil, or_false] at h ⊢ <;>
    simp only [transition, configureStep, destroyStep, keygenStep, loadSkStep, loadPkStep, storeSkStep,
      storePkStep, signStep, signRecStep, verifyStep, verifyRecStep] <;> split
  all_goals first | (simp_all; done) | skip
  all_goals
    first
      | (rcases dispatchStep_st _ _ s with e | e <;> rw [e] <;> simp; done)
      | (try simp only [cfValidateStep, kgGenerateStep, kgBasisStep, kgSampleStep, kgTestStep, kgCommitStep, signOracleStep, signRecOracleStep, signCompactStep, verifyOracleStep,
          verifyReconStep, loadSkDecodeStep, loadPkDecodeStep, storeSkEncodeStep, signBasisStep,
          signSampleStep, signFail, signEncodeStep, verifyDecodeStep, verifyNormStep,
          verifyRecDecodeStep, verifyRecNormStep, verifyRecoverStep, verifyMergeStep, verifyTagStep,
          rejectRec]
         repeat' split
         all_goals first | (simp [*]; done) | (exfalso; simp_all; done))

/-- A running command is on its path after a transition, or has ended. -/
theorem transition_onPath (C : Collab) (i : Instr) {s : State} (h : onPath i s = true)
    (hb : (transition C i s).status.busy = true) : onPath i (transition C i s) = true := by
  simp only [onPath, Bool.and_eq_true, List.contains_iff_mem] at h ⊢
  refine ⟨hb, ?_⟩
  by_cases hf : s.st = .finish
  · rw [transition_finish C i hf] at hb
    cases hb
  · exact transition_path C i s h.2 hf

/-- A move of a command, made or waited for, ends it, leaves it as it is, or brings it nearer its end. -/
theorem whenAnswered_progress (C : Collab) (i : Instr) (s : State) :
    (whenAnswered C i (transition C i) s).status.busy = false ∨ whenAnswered C i (transition C i) s = s
      ∨ remaining i (whenAnswered C i (transition C i) s) < remaining i s := by
  rcases whenAnswered_cases C i (transition C i) s with h | h <;> rw [h]
  · exact .inr (.inl rfl)
  · exact transition_progress C i s

theorem whenAnswered_onPath (C : Collab) (i : Instr) {s : State} (h : onPath i s = true)
    (hb : (whenAnswered C i (transition C i) s).status.busy = true) :
    onPath i (whenAnswered C i (transition C i) s) = true := by
  rcases whenAnswered_cases C i (transition C i) s with e | e <;> rw [e] at hb ⊢
  · exact h
  · exact transition_onPath C i h hb

/-- Where the collaborators answer, a run is the run of the transitions. -/
theorem runSteps_answered (C : Collab) (i : Instr) {s : State} (h : s.silent = []) (n : Nat) :
    runSteps (whenAnswered C i (transition C i)) n s = runSteps (transition C i) n s := by
  induction n generalizing s with
  | zero => rfl
  | succ n ih =>
    unfold runSteps
    rw [whenAnswered_of_silent h, ih ((transition_keeps C i s).1.trans h)]

/-- A command that calls no collaborator runs its transitions. -/
theorem runSteps_noCalls (C : Collab) {i : Instr} (hi : i ∈ [Instr.configure, .destroy, .storePk]) {s : State}
    (h : onPath i s = true) (n : Nat) :
    runSteps (whenAnswered C i (transition C i)) n s = runSteps (transition C i) n s := by
  induction n generalizing s with
  | zero => rfl
  | succ n ih =>
    have hp : s.st ∈ commandPath i := by
      simp only [onPath, Bool.and_eq_true, List.contains_iff_mem] at h
      exact h.2
    unfold runSteps
    rw [whenAnswered_of_no_call (noCalls hi hp)]
    cases hb : (transition C i s).status.busy
    · rw [runSteps_idle hb, runSteps_idle hb]
    · rw [ih (transition_onPath C i h hb)]

/-- With more transitions than remain, any number gives the same end. -/
theorem runSteps_enough (C : Collab) (i : Instr) (s : State) {m n : Nat} (hm : remaining i s < m)
    (hn : remaining i s < n) :
    runSteps (whenAnswered C i (transition C i)) m s = runSteps (whenAnswered C i (transition C i)) n s := by
  obtain ⟨r, hr⟩ : ∃ r, remaining i s = r := ⟨_, rfl⟩
  induction r using Nat.strong_induction_on generalizing s m n with
  | _ r ih =>
    cases hb : s.status.busy with
    | false => rw [runSteps_idle hb, runSteps_idle hb]
    | true =>
      obtain ⟨m, rfl⟩ : ∃ k, m = k + 1 := ⟨m - 1, by omega⟩
      obtain ⟨n, rfl⟩ : ∃ k, n = k + 1 := ⟨n - 1, by omega⟩
      rcases whenAnswered_progress C i s with h | h | h
      · rw [runSteps_busy hb, runSteps_busy hb, runSteps_idle h, runSteps_idle h]
      · rw [runSteps_fixed h, runSteps_fixed h]
      · rw [runSteps_busy hb, runSteps_busy hb]
        exact ih _ (by omega) _ (by omega) (by omega) rfl

/-- A run of enough transitions, however many. -/
theorem runSteps_enoughSteps (C : Collab) (i : Instr) (s : State) {n : Nat} (hn : enoughSteps s ≤ n) :
    runSteps (whenAnswered C i (transition C i)) n s = runSteps (whenAnswered C i (transition C i)) (enoughSteps s) s :=
  runSteps_enough C i s ((remaining_lt i s).trans_le hn) (remaining_lt i s)

/-- A running command's meaning is the run from the state after its next move (R36). -/
theorem runSteps_move (C : Collab) (i : Instr) {s : State} (hb : s.status.busy = true) :
    runSteps (whenAnswered C i (transition C i)) (enoughSteps s) s
      = runSteps (whenAnswered C i (transition C i)) (enoughSteps (whenAnswered C i (transition C i) s))
          (whenAnswered C i (transition C i) s) := by
  obtain ⟨k, hk⟩ : ∃ k, enoughSteps s = k + 1 := ⟨enoughSteps s - 1, by unfold enoughSteps; omega⟩
  have hs := remaining_lt i s
  rcases whenAnswered_progress C i s with h | h | h
  · rw [hk, runSteps_busy hb, runSteps_idle h, runSteps_idle h]
  · rw [h]
  · rw [hk, runSteps_busy hb]
    exact runSteps_enough C i _ (by omega) (remaining_lt i _)

end Sys2Proof.Machine
end

