-- ==== Sys2Proof/Laws/Memory.lean ====
section
/-! SUPPORT. The window bytes: every operation keeps the canonical form, and what a read finds after it. -/

namespace Sys2Proof.Machine

theorem wf_nil : Mem.wf [] := by simp [Mem.wf]

theorem wf_cons_iff {c : Host.Cell} {r : Mem} :
    Mem.wf (c :: r) ↔ (∀ d ∈ r, c.1 < d.1) ∧ c.2 ≠ 0 ∧ Mem.wf r := by
  simp only [Mem.wf, List.pairwise_cons, List.mem_cons, forall_eq_or_imp]
  tauto

/-- The addresses after a byte write are old ones or the written one. -/
theorem mem_writeByte {m : Mem} {a : Nat} {b : Byte} {c : Host.Cell} (h : c ∈ writeByte m a b) :
    c ∈ m ∨ c = (a, b) := by
  induction m with
  | nil =>
    unfold writeByte at h
    split at h <;> simp_all
  | cons d r ih =>
    unfold writeByte at h
    split_ifs at h
    · exact .inl h
    · rcases List.mem_cons.1 h with h | h
      · exact .inr h
      · exact .inl h
    · exact .inl (List.mem_cons_of_mem _ h)
    · rcases List.mem_cons.1 h with h | h
      · exact .inr h
      · exact .inl (List.mem_cons_of_mem _ h)
    · rcases List.mem_cons.1 h with h | h
      · exact .inl (h ▸ List.mem_cons_self)
      · exact (ih h).imp (List.mem_cons_of_mem _) id

/-- A byte write keeps the canonical form. -/
theorem writeByte_wf {m : Mem} (h : m.wf) (a : Nat) (b : Byte) : (writeByte m a b).wf := by
  induction m with
  | nil =>
    unfold writeByte
    split <;> simp_all [Mem.wf]
  | cons d r ih =>
    obtain ⟨hlt, hne, hr⟩ := wf_cons_iff.1 h
    unfold writeByte
    split_ifs with h1 h2 h3 h4
    · exact h
    · refine wf_cons_iff.2 ⟨?_, h2, h⟩
      rintro c hc
      rcases List.mem_cons.1 hc with rfl | hc
      · exact h1
      · exact h1.trans (hlt c hc)
    · exact hr
    · refine wf_cons_iff.2 ⟨fun c hc => ?_, h4, hr⟩
      exact h3 ▸ hlt c hc
    · refine wf_cons_iff.2 ⟨fun c hc => ?_, hne, ih hr⟩
      rcases mem_writeByte hc with hc | rfl
      · exact hlt c hc
      · dsimp only
        omega

/-- A write of several bytes keeps the canonical form. -/
theorem writeBytes_wf {m : Mem} (h : m.wf) (a : Nat) (bs : List Byte) : (writeBytes m a bs).wf := by
  induction bs generalizing m a with
  | nil => exact h
  | cons b r ih => exact ih (writeByte_wf h a b) (a + 1)

/-- Clearing a range keeps the canonical form. -/
theorem clearBytes_wf {m : Mem} (h : m.wf) (lo hi : Nat) : (clearBytes m lo hi).wf :=
  ⟨h.1.filter _, fun c hc => h.2 c (List.mem_filter.1 hc).1⟩

/-- A window store keeps the canonical form. -/
theorem windowStore_wf {s : State} (h : s.mem.wf) (win : Window) (bytes : List Byte) :
    (windowStore win bytes s).mem.wf := by
  cases win <;> exact clearBytes_wf (writeBytes_wf h _ _) _ _

/-- The window bytes after reset are in canonical form. -/
theorem reset_mem_wf : State.reset.mem.wf := wf_nil

/-- A byte below every listed address reads 0. -/
theorem readByte_of_lt {m : Mem} {a : Nat} (h : ∀ c ∈ m, a < c.1) : readByte m a = 0 := by
  induction m with
  | nil => rfl
  | cons d r ih =>
    unfold readByte
    have := h d List.mem_cons_self
    rw [if_neg (by omega)]
    exact ih fun c hc => h c (List.mem_cons_of_mem _ hc)

/-- A read after a byte write: the written byte at its address, the old byte elsewhere. -/
theorem readByte_writeByte {m : Mem} (h : m.wf) (a x : Nat) (b : Byte) :
    readByte (writeByte m a b) x = if x = a then b else readByte m x := by
  induction m with
  | nil =>
    unfold writeByte
    by_cases hb : b = 0
    · subst hb
      simp [readByte]
    · by_cases hx : x = a
      · rw [if_neg hb, if_pos hx, readByte, if_pos hx.symm]
      · rw [if_neg hb, if_neg hx]
        exact if_neg (Ne.symm hx)
  | cons d r ih =>
    obtain ⟨hlt, hne, hr⟩ := wf_cons_iff.1 h
    unfold writeByte
    by_cases hx : x = a
    · subst hx
      rw [if_pos rfl]
      split_ifs with h1 h2 h3 h4
      · subst h2
        exact readByte_of_lt fun c hc => by
          rcases List.mem_cons.1 hc with rfl | hc
          · exact h1
          · exact h1.trans (hlt c hc)
      · rw [readByte, if_pos rfl]
      · subst h4
        exact readByte_of_lt fun c hc => h3 ▸ hlt c hc
      · rw [readByte, if_pos rfl]
      · have := ih hr
        rw [if_pos rfl] at this
        rw [readByte, if_neg (by omega)]
        exact this
    · rw [if_neg hx]
      split_ifs with h1 h2 h3 h4
      · rfl
      · rw [readByte, if_neg (Ne.symm hx)]
      · rw [readByte, if_neg (by omega)]
      · rw [readByte, if_neg (Ne.symm hx), readByte, if_neg (by omega)]
      · have := ih hr
        rw [if_neg hx] at this
        simp only [readByte, this]

/-- A byte write elsewhere leaves a byte alone. -/
theorem readByte_writeByte_ne {m : Mem} (h : m.wf) {a x : Nat} (b : Byte) (hx : x ≠ a) :
    readByte (writeByte m a b) x = readByte m x := by rw [readByte_writeByte h, if_neg hx]

/-- A read after a write of several bytes. -/
theorem readByte_writeBytes {m : Mem} (h : m.wf) (a x : Nat) (bs : List Byte) :
    readByte (writeBytes m a bs) x
      = if a ≤ x ∧ x < a + bs.length then bs.getD (x - a) 0 else readByte m x := by
  induction bs generalizing m a with
  | nil =>
    simp only [writeBytes, List.length_nil, Nat.add_zero]
    rw [if_neg (by omega)]
  | cons b r ih =>
    rw [writeBytes, ih (writeByte_wf h a b), readByte_writeByte h, List.length_cons]
    by_cases hx : x = a
    · subst hx
      rw [if_neg (by omega), if_pos rfl, if_pos (by omega)]
      simp
    · rw [if_neg hx]
      by_cases hin : a + 1 ≤ x ∧ x < a + 1 + r.length
      · rw [if_pos hin, if_pos (by omega), show x - a = (x - (a + 1)) + 1 by omega]
        simp
      · rw [if_neg hin, if_neg (by omega)]

/-- A read after clearing a range: 0 inside, the old byte outside. -/
theorem readByte_clearBytes {m : Mem} (h : m.wf) (lo hi x : Nat) :
    readByte (clearBytes m lo hi) x = if lo ≤ x ∧ x < hi then 0 else readByte m x := by
  induction m with
  | nil => simp [clearBytes, readByte]
  | cons d r ih =>
    obtain ⟨hlt, -, hr⟩ := wf_cons_iff.1 h
    have ih := ih hr
    unfold clearBytes at ih ⊢
    rw [List.filter_cons]
    by_cases hd : d.1 < lo ∨ hi ≤ d.1
    · rw [if_pos (by simpa using hd)]
      by_cases hx : d.1 = x
      · rw [readByte, if_pos hx, if_neg (by omega), readByte, if_pos hx]
      · rw [readByte, if_neg hx, ih]
        simp only [readByte, if_neg hx]
    · rw [if_neg (by simpa using hd), ih]
      by_cases hx : d.1 = x
      · rw [if_pos (by omega), if_pos (by omega)]
      · simp only [readByte, if_neg hx]

/-- The bytes read back from a list of addresses are as many as asked for. -/
@[simp] theorem readBytes_length (m : Mem) (a n : Nat) : (readBytes m a n).length = n := by simp [readBytes]

/-- Byte i of a multi-byte read. -/
theorem readBytes_getD (m : Mem) (a n i : Nat) (h : i < n) :
    (readBytes m a n).getD i 0 = readByte m (a + i) := by simp [readBytes, h]

/-- What a window store leaves in memory: the stored bytes, then zeros to the capacity, and every other byte as it was. -/
theorem readByte_windowStore {s : State} (h : s.mem.wf) (win : Window) (bytes : List Byte) (x : Nat) :
    readByte (windowStore win bytes s).mem x =
      if windowBase win ≤ x ∧ x < windowBase win + bytes.length then bytes.getD (x - windowBase win) 0
      else if windowBase win + bytes.length ≤ x ∧ x < windowBase win + windowCap s.build win then 0
      else readByte s.mem x := by
  have key : (windowStore win bytes s).mem =
      clearBytes (writeBytes s.mem (windowBase win) bytes) (windowBase win + bytes.length)
        (windowBase win + windowCap s.build win) := by cases win <;> rfl
  rw [key, readByte_clearBytes (writeBytes_wf h _ _), readByte_writeBytes h]
  split_ifs <;> first | rfl | omega

end Sys2Proof.Machine
end

