-- ==== Sys2Proof/Laws/PerInstr.lean ====
section
/-! SUPPORT. For each command: its word has RSV = 0 and its opcode is one of the table (30_encoding.md R49, R50). -/

namespace Sys2Proof.Laws.CommandWord

/-- The word of a command is legal and its OPC byte selects it. -/
def Statement (i : Instr) : Prop :=
  i.wellFormed = true ∧ cwRsv (encode i) = 0 ∧ cwOpc (encode i) = opcodeOf i ∧ decodeOpc (opcodeOf i) = some i

theorem configure : Statement .configure := by unfold Statement; decide
theorem destroy : Statement .destroy := by unfold Statement; decide
theorem keygen : Statement .keygen := by unfold Statement; decide
theorem loadSk : Statement .loadSk := by unfold Statement; decide
theorem loadPk : Statement .loadPk := by unfold Statement; decide
theorem storeSk : Statement .storeSk := by unfold Statement; decide
theorem storePk : Statement .storePk := by unfold Statement; decide
theorem sign : Statement .sign := by unfold Statement; decide
theorem signRec : Statement .signRec := by unfold Statement; decide
theorem verify : Statement .verify := by unfold Statement; decide
theorem verifyRec : Statement .verifyRec := by unfold Statement; decide

end Sys2Proof.Laws.CommandWord
end

