-- ==== Sys2Proof/Laws/Scratch.lean ====
section
/-! SUPPORT. The words of SCRATCH: what is read from a slot after a vector was put into it, and into another; and that a
vector whose values fit a word is read back as it was (10_state.md R31). -/

namespace Sys2Proof.Machine

/-- Every signed value that fits a field is read back from its pattern (R71). -/
theorem signExtend_patternOf {w : Nat} {x : Int} (hw : 1 ≤ w) (h1 : -(2 ^ (w - 1) : Int) ≤ x)
    (h2 : x < 2 ^ (w - 1)) : signExtend w (patternOf w x) = x := by
  obtain ⟨k, rfl⟩ : ∃ k, w = k + 1 := ⟨w - 1, by omega⟩
  simp only [Nat.add_sub_cancel] at h1 h2
  unfold signExtend patternOf
  have hp : (2 : Int) ^ (k + 1) = 2 * 2 ^ k := by ring
  have hpn : (2 : Nat) ^ (k + 1) = 2 * 2 ^ k := by ring
  have hc : ((2 ^ k : Nat) : Int) = 2 ^ k := by norm_cast
  rw [hp, hpn]
  by_cases hx : 0 ≤ x
  · rw [Int.emod_eq_of_lt hx (by omega)]
    split <;> omega
  · rw [show x % (2 * 2 ^ k) = x + 2 * 2 ^ k by
      rw [← Int.add_emod_right]
      exact Int.emod_eq_of_lt (by omega) (by omega)]
    split <;> omega

/-- A pattern fits its width. -/
theorem patternOf_lt (w : Nat) (x : Int) : patternOf w x < 2 ^ w := by
  unfold patternOf
  have h : (0 : Int) < 2 ^ w := by positivity
  have h1 := Int.emod_nonneg x h.ne'
  have h2 := Int.emod_lt_of_pos x h
  have hc : ((2 ^ w : Nat) : Int) = 2 ^ w := by norm_cast
  omega

theorem slotIndex_lt (slot : Slot) : slotIndex slot < 7 := by cases slot <;> decide

/-- The vector a slot of the build's words gives back for `v`. -/
def heldVec (b : Build) (v : List Int) (len : Nat) : List Int :=
  vec len fun i => if i < b.nMax then signExtend b.scratchW (patternOf b.scratchW (coef v i)) else 0

@[simp] theorem putWords_length (b : Build) (slot : Slot) (v : List Int) (x : Scratch) :
    (putWords b slot v x).length = 7 * b.nMax := by simp [putWords]

/-- Words of SCRATCH_W bits stay so. -/
theorem putWords_lt {b : Build} (slot : Slot) (v : List Int) {x : Scratch} (h : ∀ y ∈ x, y < 2 ^ b.scratchW) :
    ∀ y ∈ putWords b slot v x, y < 2 ^ b.scratchW := by
  intro y hy
  obtain ⟨p, -, rfl⟩ := List.mem_map.1 hy
  split
  · exact patternOf_lt ..
  · rw [List.getD_eq_getElem?_getD]
    cases hx : x[p]? with
    | none => exact Nat.two_pow_pos _
    | some z => exact h z (List.mem_of_getElem? hx)

/-- One word after a vector was put into a slot. -/
theorem putWords_get {b : Build} (slot slot' : Slot) (v : List Int) (x : Scratch) {i : Nat} (hi : i < b.nMax) :
    (putWords b slot v x).getD (slotIndex slot' * b.nMax + i) 0
      = if slotIndex slot' = slotIndex slot then patternOf b.scratchW (coef v i)
        else x.getD (slotIndex slot' * b.nMax + i) 0 := by
  have h7 := slotIndex_lt slot'
  have hd : (slotIndex slot' * b.nMax + i) / b.nMax = slotIndex slot' := by
    rw [Nat.mul_comm, Nat.mul_add_div (by omega), Nat.div_eq_of_lt hi, Nat.add_zero]
  have hm : (slotIndex slot' * b.nMax + i) % b.nMax = i := by
    rw [Nat.mul_comm, Nat.mul_add_mod, Nat.mod_eq_of_lt hi]
  have hl : slotIndex slot' * b.nMax + i < 7 * b.nMax := by
    have := Nat.mul_le_mul_right b.nMax (show slotIndex slot' + 1 ≤ 7 by omega)
    rw [Nat.add_mul] at this
    omega
  unfold putWords
  rw [List.getD_eq_getElem _ _ (by simpa using hl)]
  simp only [List.getElem_map, List.getElem_range, hd, hm]

/-- Each slot after a vector was put into one. -/
theorem slotVec_putWords (b : Build) (slot slot' : Slot) (v : List Int) (x : Scratch) (len : Nat) :
    slotVec b (putWords b slot v x) slot' len
      = if slotIndex slot' = slotIndex slot then heldVec b v len else slotVec b x slot' len := by
  split <;> rename_i he
  all_goals
    refine vec_congr fun i _ => ?_
    by_cases hi : i < b.nMax
    · simp only [hi, if_true, putWords_get _ _ _ _ hi, he, if_false]
    · simp only [hi, if_false]

/-- A slot after a vector was put into it. -/
@[simp] theorem scratchVec_put (slot : Slot) (v : List Int) (s : State) (len : Nat) :
    scratchVec (scratchPut slot v s) slot len = heldVec s.build v len :=
  (slotVec_putWords ..).trans (if_pos rfl)

/-- A slot after a vector was put into another one. -/
theorem scratchVec_put_ne {slot slot' : Slot} (h : slotIndex slot' ≠ slotIndex slot) (v : List Int) (s : State)
    (len : Nat) : scratchVec (scratchPut slot v s) slot' len = scratchVec s slot' len :=
  (slotVec_putWords ..).trans (if_neg h)

/-- A slot depends on the build and on SCRATCH alone. -/
theorem scratchVec_congr {s t : State} (hb : t.build = s.build) (hs : t.scratch = s.scratch) (slot : Slot) (len : Nat) :
    scratchVec t slot len = scratchVec s slot len := by simp only [scratchVec, hb, hs]

/-- A vector of at most N_MAX values that fit a word is held as it is. -/
theorem heldVec_eq {b : Build} {v : List Int} {len : Nat} (hv : v.length = len) (hl : len ≤ b.nMax)
    (hw : 1 ≤ b.scratchW) (h : ∀ x ∈ v, -(2 ^ (b.scratchW - 1) : Int) ≤ x ∧ x < 2 ^ (b.scratchW - 1)) :
    heldVec b v len = v := by
  subst hv
  refine List.ext_getElem (by simp [heldVec, vec]) fun i hi hi' => ?_
  have hc : coef v i = v[i] := List.getD_eq_getElem _ _ hi'
  simp only [heldVec, vec, List.getElem_map, List.getElem_range, hc]
  rw [if_pos (by omega)]
  exact signExtend_patternOf hw (h _ (List.getElem_mem hi')).1 (h _ (List.getElem_mem hi')).2

/-- A slot gives back as many coefficients as it is asked for. -/
theorem heldVec_length (b : Build) (v : List Int) (len : Nat) : (heldVec b v len).length = len := by
  simp [heldVec, vec]

/-- Each slot of a candidate in SCRATCH. -/
theorem scratchVec_putCandidate (c : Candidate) (s : State) (len : Nat) :
    scratchVec (putCandidate c s) .f len = heldVec s.build c.key.f len
      ∧ scratchVec (putCandidate c s) .g len = heldVec s.build c.key.g len
      ∧ scratchVec (putCandidate c s) .bigF len = heldVec s.build c.key.bigF len
      ∧ scratchVec (putCandidate c s) .bigG len = heldVec s.build c.key.bigG len
      ∧ scratchVec (putCandidate c s) .h len = heldVec s.build c.h len := by
  simp only [scratchVec, putCandidate, slotVec_putWords, slotIndex, if_true]
  exact ⟨rfl, rfl, rfl, rfl, trivial⟩

/-- The candidate in SCRATCH is still there after a vector was put into a slot of the sampler's. -/
theorem candidate_put {slot : Slot} (h : slotIndex slot < 2) (v : List Int) (s : State) :
    candidateKey (scratchPut slot v s) = candidateKey s ∧ candidateH (scratchPut slot v s) = candidateH s := by
  unfold candidateKey candidateH
  simp only [scratchPut_ps]
  refine ⟨?_, scratchVec_put_ne (by revert h; cases slot <;> decide) ..⟩
  congr 1 <;> exact scratchVec_put_ne (by revert h; cases slot <;> decide) ..

/-- The candidate depends on the build, ACFG and SCRATCH alone. -/
theorem candidate_congr {s t : State} (hb : t.build = s.build) (ha : t.acfg = s.acfg) (hs : t.scratch = s.scratch) :
    candidateKey t = candidateKey s ∧ candidateH t = candidateH s := by
  unfold candidateKey candidateH
  simp only [ps_congr hb ha, scratchVec_congr hb hs, and_self]

end Sys2Proof.Machine
end

