-- ==== Sys2Proof/Laws/Step.lean ====
section
/-! SUPPORT. Everything a host access can do to the state, once; and the induction behind every invariant: what accesses and
transitions keep, steps keep. -/

namespace Sys2Proof.Machine

/-- Everything a host access or a reset can do to the state (R15 - R24, R37 - R42, R140). -/
inductive HostEffect (s : State) : State → Prop where
  | ignored : HostEffect s s
  | data (x : Word) : HostEffect s { s with rdata := x }
  | busErr : HostEffect s (busError s)
  | busErrData (x : Word) : HostEffect s { busError s with rdata := x }
  | overrun : HostEffect s { s with status := { s.status with overrun := true } }
  | cleared (d : Word) : HostEffect s { s with status := statusWrite d s.status }
  | config (h : s.status.busy = false) (hc : s.status.configured = false) (x y : Word) :
      HostEffect s { s with cfg0 := x, cfg1 := y }
  | start (h : s.status.busy = false) (w : Word) : HostEffect s (startCommand w s)
  | enable (h : s.status.busy = false) (x : Bool) : HostEffect s { s with ie := x }
  | lengths (h : s.status.busy = false) (a b c d : Word) :
      HostEffect s { s with msgLen := a, sigLen := b, pkLen := c, skLen := d }
  | bytes (h : s.status.busy = false) (a : Nat) (d : Word) (be : ByteEnables) :
      HostEffect s { s with mem := writeBufferWord a d be s.mem }
  | reset : HostEffect s (resetBlock s)

theorem unlessBusy_effect {s s' : State} (h : s.status.busy = false → HostEffect s s') :
    HostEffect s (unlessBusy s s') := by
  unfold unlessBusy
  cases hb : s.status.busy
  · exact h hb
  · exact .busErr

/-- A host event has one of these effects. -/
theorem hostEvent_effect (e : HostEvent) (s : State) : HostEffect s (hostEvent e s) := by
  cases e with
  | rst => exact .reset
  | read a =>
    obtain ⟨v, h | h⟩ := busRead_cases a s <;> rw [hostEvent, h]
    · exact .data v
    · exact .busErrData v
  | write a d be =>
    rw [hostEvent]
    rcases busWrite_cases a d be s with ⟨r, h⟩ | ⟨addr, h⟩ | h <;> rw [h]
    · cases r <;> unfold writeReg
      case cfg0 =>
        refine unlessBusy_effect fun hb => ?_
        cases hc : s.status.configured
        · exact .config hb hc _ s.cfg1
        · exact .ignored
      case cfg1 =>
        refine unlessBusy_effect fun hb => ?_
        cases hc : s.status.configured
        · exact .config hb hc s.cfg0 _
        · exact .ignored
      case cmd =>
        dsimp only
        split
        · exact .overrun
        · exact .start (by simpa using ‹¬s.status.busy = true›) d
      case status => exact .cleared _
      case ctrl => exact unlessBusy_effect fun hb => .enable hb _
      case msgLen => exact unlessBusy_effect fun hb => .lengths hb _ s.sigLen s.pkLen s.skLen
      case sigLen => exact unlessBusy_effect fun hb => .lengths hb s.msgLen _ s.pkLen s.skLen
      case pkLen => exact unlessBusy_effect fun hb => .lengths hb s.msgLen s.sigLen _ s.skLen
      case skLen => exact unlessBusy_effect fun hb => .lengths hb s.msgLen s.sigLen s.pkLen _
      all_goals exact .ignored
    · exact unlessBusy_effect fun hb => .bytes hb _ _ _
    · exact .ignored

/-- No move of a running command changes CUR_CMD but the one that ends it. -/
theorem whenAnswered_curCmd (C : Collab) (i : Instr) {s : State}
    (hb : (whenAnswered C i (transition C i) s).status.busy = true) :
    (whenAnswered C i (transition C i) s).curCmd = s.curCmd := by
  rcases whenAnswered_cases C i (transition C i) s with e | e <;> rw [e] at hb ⊢
  by_cases hf : s.st = .finish
  · rw [transition_finish C i hf] at hb
    cases hb
  · exact ((transition_keeps C i s).2.2 hf).1

/-- What an illegal word's transition can do. -/
theorem illegalStep_cases (s : State) :
    (s.st = .dispatch ∧ illegalStep s = raiseError .illegalCommand s)
      ∨ (s.st = .finish ∧ illegalStep s = endCommand s)
      ∨ (s.st ≠ .dispatch ∧ s.st ≠ .finish ∧ illegalStep s = s) := by
  unfold illegalStep
  cases s.st <;> simp

/-- What every host access, every transition, every move of the inbox and every turn of the collaborators keep, every step
keeps. -/
theorem step_keeps {P : State → Prop} (hin : ∀ s r, P s → P { s with inbox := r })
    (hrc : ∀ s, P s → P (receive s))
    (hev : ∀ s t, HostEffect s t → P s → P t)
    (htr : ∀ i s, onPath i s = true → decode s.curCmd = .ok i → P s → P (transition Config.collab i s))
    (hill : ∀ s e, s.status.busy = true → decode s.curCmd = .error e → P s → P (illegalStep s))
    {s t : State} (h : P s) (ht : step s = .next t) : P t := by
  have move : ∀ i s, onPath i s = true → decode s.curCmd = .ok i → P s →
      P (whenAnswered Config.collab i (transition Config.collab i) s) := by
    intro i s hp hd h
    rcases whenAnswered_cases Config.collab i (transition Config.collab i) s with e | e <;> rw [e]
    · exact h
    · exact htr i s hp hd h
  have run : ∀ i n s, onPath i s = true → decode s.curCmd = .ok i → P s →
      P (runSteps (whenAnswered Config.collab i (transition Config.collab i)) n s) := by
    intro i n
    induction n with
    | zero => exact fun s _ _ h => h
    | succ n ih =>
      intro s hp hd h
      unfold runSteps
      split
      · have h2 := move i s hp hd h
        cases hb : (whenAnswered Config.collab i (transition Config.collab i) s).status.busy
        · rwa [runSteps_idle hb]
        · exact ih _ (whenAnswered_onPath _ _ hp hb) ((whenAnswered_curCmd _ _ hb).symm ▸ hd) h2
      · exact h
  have runI : ∀ n s e, decode s.curCmd = .error e → P s → P (runSteps illegalStep n s) := by
    have hc : ∀ s, (illegalStep s).curCmd = s.curCmd := by
      intro s
      rcases illegalStep_cases s with ⟨-, e⟩ | ⟨-, e⟩ | ⟨-, -, e⟩ <;> rw [e] <;> rfl
    intro n
    induction n with
    | zero => exact fun s _ _ h => h
    | succ n ih =>
      intro s e hd h
      unfold runSteps
      split
      · exact ih _ e ((hc s).symm ▸ hd) (hill s e ‹_› hd h)
      · exact h
  rcases step_cases s with ⟨-, -, e⟩ | ⟨hb, e, -⟩ | ⟨a, r, hi, -, e⟩ | ⟨hb, k, ev, r, hi, e⟩ <;> rw [e] at ht
  · cases ht
    exact h
  · unfold runCurrent at ht
    split at ht
    · rename_i i hd
      rw [exec_eq_runCommand] at ht
      obtain ⟨hp, rfl⟩ := runCommand_next ht
      exact run _ _ _ hp hd (hrc _ h)
    · rename_i e' hd
      unfold runIllegal at ht
      split at ht
      · cases ht
        exact runI _ _ _ hd (hrc _ h)
      · cases ht
  · cases ht
    exact hev _ _ (hostEvent_effect _ _) (hin _ _ h)
  · unfold advanceCurrent at ht
    split at ht
    · rename_i i hd
      unfold advance at ht
      split at ht
      · cases ht
        exact move _ _ ‹_› hd (hrc _ (hin _ _ h))
      · cases ht
    · rename_i e' hd
      unfold advanceIllegal at ht
      split at ht
      · cases ht
        exact hill _ _ hb hd (hrc _ (hin _ _ h))
      · cases ht

end Sys2Proof.Machine
end

