-- ==== Sys2Proof/Tests/Slice0.lean ====
section
/-! SUPPORT. The author's tests. Expected values are those of 95_test_vectors.md (named V1, K1, ... as there) or worked out by
hand from the rule the comment names. After them, for every statement with hypotheses, states and operands that meet them. -/

set_option Elab.async false

namespace Sys2Proof.Tests

open Sys2Proof Sys2Proof.Machine Sys2Proof.Claims

/-! ### Well-formedness refuses -/

theorem test_word_refuses_reserved_bits : wordWellFormed 0x00000120 = false := by decide +kernel
theorem test_word_refuses_unknown_opcode : wordWellFormed 0x000000FF = false := by decide +kernel
theorem test_word_accepts_verifyRec : wordWellFormed 0x00000031 = true := by decide +kernel
theorem test_set_refuses_no_coefficients : ParamSet.wf { toyPlain with n := 0 } .plain = false := by decide +kernel
theorem test_set_refuses_narrow_modulus : ParamSet.wf { toyPlain with q := 15 } .plain = false := by decide +kernel
theorem test_set_refuses_wide_modulus : ParamSet.wf { toyPlain with q := 32 } .plain = false := by decide +kernel
theorem test_set_refuses_modulus_below_three :
    ParamSet.wf { toyPlain with q := 2, qBits := 2 } .plain = false := by decide +kernel
theorem test_set_refuses_narrow_fg : ParamSet.wf { toyPlain with fgBits := 1 } .plain = false := by decide +kernel
theorem test_set_refuses_narrow_fgu : ParamSet.wf { toyPlain with fguBits := 1 } .plain = false := by decide +kernel
theorem test_set_refuses_wide_field :
    ParamSet.wf { toyPlain with q := 2 ^ 33, qBits := 34 } .plain = false := by decide +kernel
theorem test_set_refuses_plain_tag : toyRecovery.wf .plain = false := by decide +kernel
theorem test_set_refuses_recovery_without_tag : toyPlain.wf .recovery = false := by decide +kernel
theorem test_set_refuses_tag_of_all_coefficients :
    ParamSet.wf { toyRecovery with k := 4 } .recovery = false := by decide +kernel
theorem test_set_refuses_negative_bound :
    ParamSet.wf { toyPlain with bd := -10 } .plain = false := by decide +kernel
theorem test_set_refuses_bound_off_its_square :
    ParamSet.wf { toyPlain with bd := 21 / 2, bdSq := 110 } .plain = false := by decide +kernel
theorem test_capacity_refuses_zero : capOk 0 = false := by decide +kernel
theorem test_capacity_refuses_above_64k : capOk 65540 = false := by decide +kernel
theorem test_capacity_refuses_unaligned : capOk 6 = false := by decide +kernel
theorem test_build_refuses_bad_set : Build.wf { toyBuild with recovery1 := toyPlain } = false := by decide +kernel
theorem test_build_refuses_bad_capacity : Build.wf { toyBuild with sigCap := 7 } = false := by decide +kernel
theorem test_build_refuses_wide_nMax : Build.wf { toyBuild with nMax := 2 ^ 32 } = false := by decide +kernel
theorem test_word_refuses_wide_sample : ParamSet.fitsWord { toyPlain with fguBits := 4 } 5 = false := by decide +kernel
theorem test_word_refuses_wide_fg : ParamSet.fitsWord { toyPlain with fgBits := 7 } 6 = false := by decide +kernel
theorem test_word_refuses_wide_fgu : ParamSet.fitsWord { toyPlain with fguBits := 7 } 6 = false := by decide +kernel
theorem test_build_refuses_narrow_words : Build.wf { toyBuild with scratchW := 5 } = false := by decide +kernel
theorem test_build_accepts_toy : toyBuild.wf = true := by decide +kernel

/-! ### Decoding: words written out from R49 and R50 (OPC in bits 7:0, RSV zero) -/

theorem test_decode_configure : decode 0b00000000000000000000000000000001#32 = .ok .configure := by decide
theorem test_decode_destroy : decode 0b00000000000000000000000000000010#32 = .ok .destroy := by decide
theorem test_decode_keygen : decode 0b00000000000000000000000000010000#32 = .ok .keygen := by decide
theorem test_decode_loadSk : decode 0b00000000000000000000000000010001#32 = .ok .loadSk := by decide
theorem test_decode_loadPk : decode 0b00000000000000000000000000010010#32 = .ok .loadPk := by decide
theorem test_decode_storeSk : decode 0b00000000000000000000000000010011#32 = .ok .storeSk := by decide
theorem test_decode_storePk : decode 0b00000000000000000000000000010100#32 = .ok .storePk := by decide
theorem test_decode_sign : decode 0b00000000000000000000000000100000#32 = .ok .sign := by decide
theorem test_decode_signRec : decode 0b00000000000000000000000000100001#32 = .ok .signRec := by decide
theorem test_decode_verify : decode 0b00000000000000000000000000110000#32 = .ok .verify := by decide
theorem test_decode_verifyRec : decode 0b00000000000000000000000000110001#32 = .ok .verifyRec := by decide
theorem test_decode_refuses_reserved : decode 0x80000001 = .error .reservedBits := by decide
theorem test_decode_refuses_opcode : decode 0x00000003 = .error .unknownOpcode := by decide
theorem test_decodeTableWord : decodeTableWord 32 0x21 = some .signRec := by decide

/-! ### The toy configuration of 95_test_vectors.md section 1 -/

/-- The toy functions of section 1.3. INV_NORM[0] is one over the squared norm of row 0, read as 1 / (d + 1). -/
def toyCollab : Collab :=
  { roMap := fun _ _ msg i => (msg.map fun b => b.toNat).sum + 3 * i + 1
    roTag := fun _ _ msg _ => ((List.range msg.length).map fun j => (j + 1) * (msg.getD j 0).toNat).sum
    mix := fun _ _ t2 i => (coef t2 0).toNat + 5 * i
    gsRows := fun _ _ _ _ => 0
    gsNorm := fun rows _ i =>
      if i = 0 then (0, (((rows.getD 0 []).map fun x => x * x).sum).toNat - 1) else (0, 0)
    huffEnc := fun _ _ _ => []
    huffDec := fun _ _ _ _ _ => none
    expandOther := fun _ _ _ _ _ => 0
    transform := fun _ _ _ => 0 }

def toyKey : SecretKey :=
  { f := [1, -1, 0, 2], g := [0, 1, -2, 1], bigF := [3, -4, 0, 5], bigG := [-1, 2, 7, 0] }

def toyH : List Int := [3, 8, 10, 0]

def toyCandidate : Candidate := { key := toyKey, h := toyH }

/-- The key's wire form of section 2.4. -/
def toySkBytes : List Byte := [0x1F, 0x02, 0x01, 0xE1, 0x0F, 0xC0, 0x05, 0xFC, 0x21, 0xC0]

/-- What CONFIGURE latches for CFG0 = 0 but VARIANT and KEEP, CFG1 = 0. -/
def toyAcfg (v : Variant) (keep : Bool) : Acfg :=
  { Acfg.zero with variant := v, keep := keep, sampPrec := 32, hashId := 1, dlen := 32 }

/-- A configured block that idles, with the stores named valid. -/
def idle (v : Variant) (keep skv pkv : Bool) : State :=
  { State.powerOn toyBuild with
    acfg := toyAcfg v keep
    status := { Status.zero with configured := true, skValid := skv, pkValid := pkv }
    sk := if skv then toyKey else SecretKey.zero
    pk := if pkv then toyH else []
    st := .ready }

/-- The state after the CMD write of a command. -/
def cmdIn (i : Instr) (s : State) : State := startCommand (encode i) s

def msgIn (bytes : List Byte) (s : State) : State := windowStore .msg bytes s

def sigIn (bytes : List Byte) (s : State) : State := windowStore .sig bytes s

/-- What a test looks at in the next state. -/
def look {α : Type} (f : State → α) : Host.Outcome State Fault Refusal → Option α
  | .next s => some (f s)
  | .fault _ | .refused _ => none

/-! ### One or two tests for each command -/

/-- F2: RECOVERY, set 0, KEEP. -/
theorem test_configure_recovery :
    look (fun t => (statusWord t, readReg t .pK, readReg t .pL1, t.acfg.keep))
      (execConfigure (cmdIn .configure { State.powerOn toyBuild with cfg0 := 0x30 }))
      = some (0x01010022, 1, 12, true) := by decide +kernel

/-- F8: the range checks come before the build checks. -/
theorem test_configure_order :
    look (fun t => (statusWord t, t.acfg))
      (execConfigure (cmdIn .configure { State.powerOn toyBuild with cfg0 := 0x000C0040 }))
      = some (0x01002006, Acfg.zero) := by decide +kernel

/-- F15: everything the host could see is gone. -/
theorem test_destroy :
    look (fun t => (statusWord t, t.sk, readByte t.mem 0x10000, t.msgLen, readReg t .pN))
      (execDestroy (cmdIn .destroy (msgIn [0xAB] (idle .recovery true true true))))
      = some (0x02000002, SecretKey.zero, 0, 0, 0) := by decide +kernel

/-- K1: the RETRY does not count. -/
theorem test_keygen_accepts :
    look (fun t => (statusWord t, t.kgAttempts, t.sk, t.pk))
      (keygenWith toyCollab (cmdIn .keygen { idle .recovery false false false with
        genPort := [.retry, .cand toyCandidate], sampPort := [.ok [8, 9, 8, 9] []] }))
      = some (0x100100E2, 1, toyKey, toyH) := by decide +kernel

/-- K2, its first candidate: sd = 16 > N·sigma = 8, so the loop starts again and waits for the generator. -/
theorem test_keygen_rejects :
    look (fun t => (t.status.busy, t.st, t.kgAttempts, t.status.skValid))
      (keygenWith toyCollab (cmdIn .keygen { idle .plain false false false with
        genPort := [.cand { key := { f := [1], g := [], bigF := [], bigG := [1] }, h := [1] }]
        sampPort := [.ok [16, -16, 16, -16] []] }))
      = some (true, .kgGenerate, 1, false) := by decide +kernel

/-- L8. -/
theorem test_loadSk :
    look (fun t => (statusWord t, t.sk))
      (loadSkWith toyCollab (cmdIn .loadSk (windowStore .sk toySkBytes (idle .plain false false false))))
      = some (0x11010062, toyKey) := by decide +kernel

/-- L1. -/
theorem test_loadPk :
    look (fun t => (statusWord t, t.pk))
      (loadPkWith toyCollab (cmdIn .loadPk (windowStore .pk [0x1A, 0x14, 0x00] (idle .plain false false false))))
      = some (0x120100A2, toyH) := by decide +kernel

/-- L5: a coefficient that is Q. -/
theorem test_loadPk_range :
    look (fun t => (statusWord t, t.pk))
      (loadPkWith toyCollab (cmdIn .loadPk (windowStore .pk [0x8C, 0x00, 0x00] (idle .plain false false false))))
      = some (0x12012026, []) := by decide +kernel

/-- R106, R48: with a transform that does not answer, a key with a coefficient that is Q (L5) ends with an error; a good key
(L1) holds. -/
theorem test_loadPk_waits_after_its_checks :
    let load := fun (bytes : List Byte) => cmdIn .loadPk (windowStore .pk bytes { idle .plain false false false with
      build := { toyBuild with keepNtt := true }, silent := [.kyDecode] })
    look (fun t => (t.status.busy, t.status.errcode)) (loadPkWith toyCollab (load [0x8C, 0x00, 0x00]))
        = some (false, .outOfBounds)
      ∧ look (fun t => (t.status.busy, t.st)) (loadPkWith toyCollab (load [0x1A, 0x14, 0x00])) = some (true, .kyDecode) := by
  decide +kernel

/-- R96, R48: in cache mode BASIS_VALID is 0 while KEYGEN is held in KG_BASIS. -/
theorem test_keygen_holds_without_a_valid_basis :
    look (fun t => (t.st, t.status.basisValid))
      (keygenWith toyCollab { cmdIn .keygen { idle .plain true true false with
        genPort := [.cand toyCandidate], silent := [.kgBasis] } with
        status := { (cmdIn .keygen (idle .plain true true false)).status with basisValid := true } })
      = some (.kgBasis, false) := by decide +kernel

/-- R31: the words of SCRATCH after a target was put into it: two's complement of 32 bits, seven vectors of four words. -/
theorem test_scratch_words :
    (scratchPut .target [8, -1, 0, 2] (State.powerOn toyBuild)).scratch
      = [8, 0xFFFFFFFF, 0, 2] ++ List.replicate 24 0 := by decide +kernel

/-- L11: bytes 10 and 11 held 0xEE. -/
theorem test_storeSk :
    look (fun t => (statusWord t, windowRead t .sk 12, t.skLen))
      (storeSkWith toyCollab (cmdIn .storeSk (windowStore .sk (List.replicate 12 0xEE) (idle .plain false true false))))
      = some (0x13010062, toySkBytes ++ [0, 0], 10) := by decide +kernel

/-- L12: the low bit of a byte comes first. -/
theorem test_storePk_lsb :
    look (fun t => (windowRead t .pk 4, t.pkLen))
      (storePkWith toyCollab (cmdIn .storePk { idle .plain false false true with
        build := { toyBuild with bitOrder := .lsbFirst } }))
      = some ([0x03, 0x29, 0x00, 0x00], 3) := by decide +kernel

/-- S2: the sample is centred before it is packed. -/
theorem test_sign_centres :
    look (fun t => (statusWord t, windowRead t .sig 8, t.sigLen))
      (signWith toyCollab (cmdIn .sign (msgIn [0x61, 0x62, 0x63]
        { idle .plain false true false with sampPort := [.ok [16, -9, 9, -16] []] })))
      = some (0x20010062, [0xFA, 0x30, 0x10, 0, 0, 0, 0, 0], 3) := by decide +kernel

/-- S4: a failed sample empties the window. -/
theorem test_sign_failure :
    look (fun t => (statusWord t, windowRead t .sig 8, t.sigLen, t.msgLen))
      (signWith toyCollab (cmdIn .sign (sigIn (List.replicate 8 0xFF) (msgIn [0x61, 0x62, 0x63]
        { idle .plain false true false with sampPort := [.fail] }))))
      = some (0x20014066, List.replicate 8 0, 0, 3) := by decide +kernel

/-- SR1: the signature and the rewritten message. -/
theorem test_signRec :
    look (fun t => (statusWord t, windowRead t .sig 5, t.sigLen, windowRead t .msg 4, t.msgLen))
      (signRecWith toyCollab (cmdIn .signRec (msgIn [0xAB, 0xCD, 0xEF]
        { idle .recovery false true false with sampPort := [.ok [1, 0, -1, 2] [2, 0, 5, 8]] })))
      = some (0x21010062, [0x08, 0x3E, 0x21, 0x00, 0xA8], 5, [0xDE, 0xF0, 0, 0], 2) := by decide +kernel

/-- SR1 up to the sampler: the target c. -/
theorem test_signRec_target :
    recTarget toyCollab .msbFirst toyRecovery (toyAcfg .recovery false).oracle [0xAB, 0xCD, 0xEF]
      = [16, 5, 12, 6] := by decide +kernel

/-- V1. -/
theorem test_verify_accepts :
    look (fun t => (statusWord t, t.verifiedCnt, t.unverifiedCnt))
      (verifyWith toyCollab (cmdIn .verify (sigIn [0x0F, 0x80, 0x10] (msgIn [0x61, 0x62, 0x63]
        (idle .plain false false true)))))
      = some (0x300100AA, 1, 0) := by decide +kernel

/-- V8: the norm uses -16 unreduced. -/
theorem test_verify_rejects :
    look (fun t => (statusWord t, t.verifiedCnt, t.unverifiedCnt))
      (verifyWith toyCollab (cmdIn .verify (sigIn [0x87, 0x80, 0x10] (msgIn [0x61, 0x62, 0x63]
        (idle .plain false false true)))))
      = some (0x300150B2, 0, 1) := by decide +kernel

/-- VR1: the full message comes back. -/
theorem test_verifyRec_accepts :
    look (fun t => (t.status.accept, windowRead t .msg 4, t.msgLen))
      (verifyRecWith toyCollab (cmdIn .verifyRec (sigIn [0x08, 0x3E, 0x21, 0x00, 0xA8] (msgIn [0xDE, 0xF0]
        (idle .recovery false false true)))))
      = some (true, [0xAB, 0xCD, 0xEF, 0], 3) := by decide +kernel

/-- VR6: a recovered coefficient of 16 does not fit W = 4 bits. -/
theorem test_verifyRec_rejects :
    look (fun t => (t.status.reject, t.status.errcode, windowRead t .msg 4, t.msgLen))
      (verifyRecWith toyCollab (cmdIn .verifyRec (sigIn [0x00, 0x00, 0x0F, 0x80, 0x00]
        (idle .recovery false false true))))
      = some (true, .verificationRejected, [0, 0, 0, 0], 0) := by decide +kernel

/-! ### The host port -/

/-- H6: byte enables 0101. -/
theorem test_window_byte_enables :
    windowRead (busWrite 0x10000 0xAABBCCDD 0b0101 (State.powerOn toyBuild)) .msg 4 = [0xDD, 0x00, 0xBB, 0x00] := by
  decide +kernel

/-- H9: only DONE, OVERRUN and BUSERR clear. -/
theorem test_status_write :
    busReadData 0x014 (busWrite 0x014 0xFFFFFFFF 0xF { idle .plain false true true with
      status := { Status.zero with
        done := true, configured := true, skValid := true, pkValid := true, overrun := true, busErr := true,
        lastOp := 0x10 } })
      = 0x100100E0 := by decide +kernel

/-- D1: LAST_OP is the low byte of the word, and RSV decides. -/
theorem test_illegal_word :
    look statusWord (step (hostEvent (.write 0x010 0x00000120 0xF) (State.powerOn toyBuild))) = some 0x20007006 := by
  decide +kernel

/-! ### Witnesses: states and operands that meet the hypotheses of the statements -/

theorem witness_CommandTableDecodes : ((0x00000021 : Word), Instr.signRec) ∈ commandWords := by decide

theorem witness_DecodeAndEncodeAgree : decode 0x00000031 = .ok .verifyRec := by decide

theorem witness_IllegalWordChangesNothingElse :
    (idle .plain false true true).status.busy = false ∧ (∀ p ∈ commandWords, p.1 ≠ (0x00000120 : Word))
      ∧ (idle .plain false true true).inbox = [] := by decide +kernel

/-- Both forms of the inbox. -/
theorem witness_StepRunsTheDecodedCommand :
    let s := cmdIn .verify (idle .plain false false true)
    let s' := { s with inbox := [hostRd 0x014] }
    s.status.busy = true ∧ decode s.curCmd = .ok .verify ∧ s.inbox = []
      ∧ s'.status.busy = true ∧ decode s'.curCmd = .ok .verify ∧ s'.inbox = [⟨none, .read 0x014⟩] := by decide +kernel

/-- One state for each clause, and a busy one for the second. -/
theorem witness_AccessesLandOneAtATime :
    let s := idle .plain false false true
    let busy := cmdIn .verify s
    (s.status.busy = false ∧ s.inbox = [])
      ∧ ({ s with inbox := [hostRd 0x014] } : State).inbox = [hostRd 0x014]
      ∧ ({ busy with inbox := [inside 0 (hostRd 0x014)] } : State).inbox = [inside 0 (hostRd 0x014)]
      ∧ (inside 0 (hostRd 0x014)).during = some 0
      ∧ busy.status.busy = true ∧ decode busy.curCmd = .ok .verify
      ∧ ({ busy with inbox := [inside 1 (hostRd 0x014)] } : State).inbox = [⟨some (0 + 1), .read 0x014⟩] := by
  decide +kernel

/-- A transition after which the command runs on, and the one that ends it. -/
theorem witness_CuttingACommandKeepsItsEnd :
    let s := cmdIn .verify (idle .plain false false true)
    (∃ t, advance .verify s = .next t ∧ t.status.busy = true)
      ∧ ∃ t, advance .verify { s with st := .finish } = .next t ∧ t.status.busy = false :=
  ⟨⟨_, rfl, rfl⟩, ⟨_, rfl, rfl⟩⟩

/-- While the block idles and while a command runs. -/
theorem witness_ResetInputAbandonsTheCommand :
    let a : Arrival := { during := some 0, event := .rst }
    let s := { idle .plain false true true with inbox := [a] }
    let busy := cmdIn .verify s
    s.inbox = [a] ∧ busy.inbox = [a] ∧ a.event = .rst ∧ s.status.busy = false ∧ a.during = some 0 := by decide +kernel

theorem witness_CmdWriteStartsACommand :
    (idle .plain false true true).status.busy = false
      ∧ (cmdIn .sign (idle .plain false true true)).status.busy = true := by decide +kernel

/-- An address before or past every window is in none. -/
theorem in_no_window {b : Build} {x : Nat}
    (h : ∀ win ∈ [Window.msg, .sig, .pk, .sk], x < windowBase win ∨ windowBase win + windowCap b win ≤ x) (win : Window) :
    ¬InWindow b win x := by
  have := h win (by cases win <;> simp)
  unfold InWindow
  omega

/-- A busy block; the first and last word of each range a clause names: CFG0 and SK_LEN, the ends of MSG and SK, CMD, ID and
N_MAX, STATUS, and the ends of the reserved ranges. -/
theorem witness_BusyInterlockDropsAccesses :
    let s := cmdIn .verify (idle .plain false false true)
    (s.status.busy = true ∧ s.build.wf = true)
      ∧ ((0x00B : BusAddr).toNat / 4 * 4 = 0x008 ∧ (0x028 : BusAddr).toNat / 4 * 4 = 0x028)
      ∧ (InWindow s.build .msg ((0x10000 : BusAddr).toNat / 4 * 4)
          ∧ InWindow s.build .msg ((0x1000F : BusAddr).toNat / 4 * 4)
          ∧ InWindow s.build .sk ((0x40008 : BusAddr).toNat / 4 * 4))
      ∧ (0x013 : BusAddr).toNat / 4 * 4 = 0x010
      ∧ ((0x000 : BusAddr).toNat / 4 * 4 < 0x068 ∧ (0x067 : BusAddr).toNat / 4 * 4 < 0x068)
      ∧ (0x014 : BusAddr).toNat / 4 * 4 = 0x014
      ∧ (Reserved ((0x068 : BusAddr).toNat / 4 * 4) ∧ Reserved ((0x0FFFF : BusAddr).toNat / 4 * 4))
      ∧ (Reserved ((0x50000 : BusAddr).toNat / 4 * 4) ∧ Reserved ((0xFFFFF : BusAddr).toNat / 4 * 4)) :=
  ⟨by decide +kernel, by decide, by unfold InWindow; decide, by decide, by decide, by decide, by unfold Reserved; decide,
    by unfold Reserved; decide⟩

/-- Both values of CONFIGURED; the ends of the two address ranges of the last clause. -/
theorem witness_ReadOnlyRegisters :
    State.reset.status.configured = false ∧ (idle .plain false true true).status.configured = true
      ∧ (0x007 : BusAddr).toNat < 8 ∧ 0x02C ≤ (0x02C : BusAddr).toNat ∧ (0x067 : BusAddr).toNat < 0x068 := by
  decide +kernel

theorem witness_RegisterWritesHonourByteEnables :
    State.reset.status.busy = false ∧ State.reset.status.configured = false
      ∧ (idle .plain false true true).status.busy = false
      ∧ (idle .plain false true true).status.configured = true := by decide +kernel

/-- The first word of MSG and the last of SK. -/
theorem witness_WindowAccessIsLittleEndian :
    let s := msgIn [0xAB] (idle .plain false false true)
    s.status.busy = false ∧ s.mem.wf ∧ s.build.wf = true ∧ InWindow s.build .msg ((0x10003 : BusAddr).toNat / 4 * 4)
      ∧ InWindow s.build .sk ((0x4000B : BusAddr).toNat / 4 * 4) := by
  unfold InWindow
  decide +kernel

/-- The first reserved address, the last below the windows, the first past MSG_CAP, the last of all. -/
theorem witness_ReservedAddressesAreInert :
    let s := idle .plain false false true
    s.build.wf = true
      ∧ (0x068 ≤ (0x068 : BusAddr).toNat ∧ ∀ win, ¬InWindow s.build win ((0x068 : BusAddr).toNat / 4 * 4))
      ∧ (0x068 ≤ (0x0FFFF : BusAddr).toNat ∧ ∀ win, ¬InWindow s.build win ((0x0FFFF : BusAddr).toNat / 4 * 4))
      ∧ (0x068 ≤ (0x10010 : BusAddr).toNat ∧ ∀ win, ¬InWindow s.build win ((0x10010 : BusAddr).toNat / 4 * 4))
      ∧ (0x068 ≤ (0xFFFFF : BusAddr).toNat ∧ ∀ win, ¬InWindow s.build win ((0xFFFFF : BusAddr).toNat / 4 * 4)) :=
  ⟨by decide +kernel, ⟨by decide, in_no_window (by decide)⟩, ⟨by decide, in_no_window (by decide)⟩,
    ⟨by decide, in_no_window (by decide)⟩, ⟨by decide, in_no_window (by decide)⟩⟩

/-- A command that ends, an illegal word that ends, and an idle block. -/
theorem witness_InterruptFollowsDoneAndEnable :
    let illegal := startCommand 0x00000120 (State.powerOn toyBuild)
    (∃ t, exec .configure (cmdIn .configure { State.powerOn toyBuild with ie := true }) = .next t
        ∧ t.status.busy = false)
      ∧ (decode illegal.curCmd = .error .reservedBits ∧ ∃ t, runIllegal illegal = .next t)
      ∧ (idle .plain false true true).status.busy = false :=
  ⟨⟨_, rfl, by decide +kernel⟩, ⟨by decide, _, rfl⟩, rfl⟩

/-- Two states that differ in the key alone. -/
theorem witness_HostAccessesRevealNoSecret :
    publicPart (idle .plain false true true) = publicPart { idle .plain false true true with sk := SecretKey.zero }
      ∧ idle .plain false true true ≠ { idle .plain false true true with sk := SecretKey.zero } := by decide +kernel

/-- K6: KEYGEN of an unconfigured block. -/
theorem witness_DispatchFailureChangesOnlyStatus :
    let s := cmdIn .keygen (State.powerOn toyBuild)
    AtDispatch s ∧ dispatchError .keygen s = some .nullPointer := by
  unfold AtDispatch
  decide +kernel

/-- One state that is latched and one that is refused. -/
theorem witness_ConfigureLatchesOrRefuses :
    let s := cmdIn .configure { State.powerOn toyBuild with cfg0 := 0x30 }
    let s' := cmdIn .configure { State.powerOn toyBuild with cfg0 := 0x2 }
    let s2 := cmdIn .configure (idle .plain false true true)
    (AtDispatch s2 ∧ s2.status.configured = true) ∧ (AtDispatch s ∧ s.status.configured = false ∧ cfgValidate s.build s.cfg0 s.cfg1 = .ok (toyAcfg .recovery true))
      ∧ (AtDispatch s' ∧ s'.status.configured = false
        ∧ cfgValidate s'.build s'.cfg0 s'.cfg1 = .error .outOfBounds) := by
  unfold AtDispatch
  decide +kernel

theorem witness_DestroyReachesTheResetState :
    let s := cmdIn .destroy (msgIn [0xAB] (idle .recovery true true true))
    AtDispatch s ∧ s.status.err = false ∧ s.status.accept = false ∧ s.status.reject = false
      ∧ s.status.errcode = .none := by
  unfold AtDispatch
  decide +kernel

/-- What `Fits` asks for follows from the build's constraints and the storage check. -/
theorem fits_of_invariants {s : State} (hw : s.build.wf = true)
    (hs : storageFits s.build s.acfg.variant s.ps = true) : Fits s := by
  simp only [storageFits, Bool.and_eq_true, decide_eq_true_eq] at hs
  have key : ∀ (ps : ParamSet) (v : Variant), ps.wf v = true →
      ps.k ≤ ps.n ∧ 1 ≤ ps.q ∧ ps.q < 2 ^ ps.qBits := by
    intro ps v h
    simp only [ParamSet.wf, Bool.and_eq_true, decide_eq_true_eq] at h
    cases v <;> simp only [Bool.and_eq_true, decide_eq_true_eq] at h <;> omega
  simp only [Build.wf, Bool.and_eq_true, decide_eq_true_eq] at hw
  obtain ⟨⟨⟨⟨⟨⟨⟨⟨⟨⟨⟨⟨p0, p1⟩, r0⟩, r1⟩, -⟩, -⟩, -⟩, -⟩, -⟩, q0⟩, q1⟩, q2⟩, q3⟩ := hw
  unfold Fits State.ps Build.pset at *
  split <;> rename_i hv <;> rw [hv] at hs <;> dsimp only at hs <;> split at hs <;> rename_i hi <;>
    simp only [hi, if_true, if_false] <;> first
      | exact ⟨by omega, (key _ _ p0).1, (key _ _ p0).2.1, (key _ _ p0).2.2, q0⟩
      | exact ⟨by omega, (key _ _ p1).1, (key _ _ p1).2.1, (key _ _ p1).2.2, q1⟩
      | exact ⟨by omega, (key _ _ r0).1, (key _ _ r0).2.1, (key _ _ r0).2.2, q2⟩
      | exact ⟨by omega, (key _ _ r1).1, (key _ _ r1).2.1, (key _ _ r1).2.2, q3⟩

/-- A constant sample has deviation 0 and passes at any width. -/
theorem accept_constant (sigma : Rat) :
    kgAccept toyBuild toyPlain (contractSample toyPlain [8, 8, 8, 8]) sigma = true := by
  have e : ((toyPlain.n * sumTo toyPlain.n fun i => coef (contractSample toyPlain [8, 8, 8, 8]) i
        * coef (contractSample toyPlain [8, 8, 8, 8]) i)
      - sumTo toyPlain.n (coef (contractSample toyPlain [8, 8, 8, 8]))
        * sumTo toyPlain.n (coef (contractSample toyPlain [8, 8, 8, 8])) : Int) = 0 := by decide
  simp only [kgAccept, decide_eq_true_eq, e]
  exact mul_nonneg (Nat.cast_nonneg _) (mul_self_nonneg sigma)

/-- The toy build with a larger modulus in its plain set 0, and words that hold its values. -/
def wideBuild (q : Nat) : Build :=
  { toyBuild with scratchW := q + 33, plain0 := { toyPlain with q := q, qBits := q } }

/-- At any width some alternating sample fails, for a modulus above it: N·S2 - S1² is 16·m², the bound 256·sigma². -/
theorem reject_alternating (sigma : Rat) :
    ∃ m : Nat, kgAccept (wideBuild (m + 1)) (wideBuild (m + 1)).plain0
      (contractSample (wideBuild (m + 1)).plain0 [m, -m, m, -m]) sigma = false := by
  obtain ⟨m, hm⟩ := exists_nat_gt (4 * |sigma|)
  refine ⟨m, ?_⟩
  have e0 : contractSample (wideBuild (m + 1)).plain0 [(m : Int), -m, m, -m] = [(m : Int), -m, m, -m] := by
    have h1 : (m : Int).tmod ((m + 1 : Nat) : Int) = m := Int.tmod_eq_of_lt (by omega) (by omega)
    show [(m : Int).tmod _, (-(m : Int)).tmod _, (m : Int).tmod _, (-(m : Int)).tmod _] = _
    simp only [Int.neg_tmod]
    rw [show ((wideBuild (m + 1)).plain0.q : Int) = ((m + 1 : Nat) : Int) from rfl, h1]
  have e1 : sumTo 4 (coef [(m : Int), -m, m, -m]) = 0 := by
    show ([(m : Int), -m, m, -m]).sum = 0
    simp
  have e2 : (sumTo 4 fun i => coef [(m : Int), -m, m, -m] i * coef [(m : Int), -m, m, -m] i) = 4 * (m * m) := by
    show ([(m : Int) * m, -m * -m, m * m, -m * -m]).sum = _
    simp
    ring
  have e3 : sdDivisor (wideBuild (m + 1)) (wideBuild (m + 1)).plain0 * (wideBuild (m + 1)).plain0.n ^ 3 = 256 := by
    show 4 * 4 ^ 3 = 256
    decide
  simp only [kgAccept, decide_eq_false_iff_not, not_le]
  rw [e0, e3, show (wideBuild (m + 1)).plain0.n = 4 from rfl, e1, e2]
  clear e0 e1 e2 e3
  push_cast
  have := abs_nonneg sigma
  nlinarith [abs_mul_abs_self sigma]

theorem witness_KeygenInstallsTheAcceptedCandidate :
    let s := cmdIn .keygen { idle .plain true false false with
      genPort := [.cand toyCandidate], sampPort := [.ok [8, 8, 8, 8] []] }
    Fits s ∧ AtDispatch s ∧ s.status.configured = true ∧ s.build.keygen = true ∧ s.silent = []
      ∧ s.genPort = [.cand toyCandidate] ∧ s.sampPort = [.ok [8, 8, 8, 8] []]
      ∧ kgAccept s.build s.ps (contractSample s.ps [8, 8, 8, 8])
          (2 / (candidateBasis s toyCandidate).invNorm.getD 0 0) = true :=
  ⟨by unfold Fits; decide +kernel, ⟨rfl, rfl⟩, rfl, rfl, rfl, rfl, rfl, accept_constant _⟩

/-- A KEYGEN in KG_GENERATE with a candidate and the given sampler answer, and the modulus q. -/
def generating (q : Nat) (d : SampleDraw) : State :=
  { cmdIn .keygen { idle .plain true false false with
      build := wideBuild q, genPort := [.cand toyCandidate], sampPort := [d] } with st := .kgGenerate }

/-- A failed sample; and, whatever the basis is, a modulus and a sample below it that fails the test. -/
theorem witness_KeygenRestartsOnARejectedCandidate :
    let met := fun (s : State) (d : SampleDraw) =>
      Fits s ∧ s.status.busy = true ∧ s.st = .kgGenerate ∧ s.silent = [] ∧ s.genPort = [.cand toyCandidate]
        ∧ s.sampPort = [d]
    met (generating 17 .fail) .fail
      ∧ ∃ (q : Nat) (s1 : List Int), met (generating q (.ok s1 [])) (.ok s1 [])
        ∧ kgAccept (generating q (.ok s1 [])).build (generating q (.ok s1 [])).ps
            (contractSample (generating q (.ok s1 [])).ps s1)
            (2 / (candidateBasis (generating q (.ok s1 [])) toyCandidate).invNorm.getD 0 0) = false := by
  have fits : ∀ q d, 1 ≤ q → Fits (generating q d) := by
    intro q d hq
    refine ⟨le_rfl, Nat.zero_le _, hq, Nat.lt_two_pow_self, ?_⟩
    show (decide (q + 1 ≤ q + 33) && decide (4 ≤ q + 33) && decide (6 ≤ q + 33)) = true
    simp
  refine ⟨⟨fits _ _ (by decide), rfl, rfl, rfl, rfl, rfl⟩, ?_⟩
  obtain ⟨m, hm⟩ := reject_alternating (2 / (candidateBasis (generating 17 .fail) toyCandidate).invNorm.getD 0 0)
  exact ⟨m + 1, [m, -m, m, -m], ⟨fits _ _ (by omega), rfl, rfl, rfl, rfl, rfl⟩, hm⟩

/-- A RETRY, no answer, KEYGEN from DISPATCH with no answer, a call of every kind in a silent state, a call in a state that is
not silent, and two states that make none: DISPATCH, and LOAD_PK of a window that does not unpack (PK_LEN = 0). -/
theorem witness_KeygenRetriesAndWaits :
    let s := { cmdIn .keygen (idle .plain true false false) with st := .kgGenerate, genPort := [.retry] }
    let s' := { s with genPort := [] }
    let start := { s' with st := .dispatch }
    let answered := { s with st := .kgBasis, silent := [.kgCommit] }
    let held := fun (f : Fsm) (s : State) => { s with st := f, silent := [f] }
    let keeping := { s with build := { toyBuild with keepNtt := true } }
    let coded := { s with acfg := { toyAcfg .plain false with skCoding := .huffman, sigCoding := .huffman } }
    (s.status.busy = true ∧ s.st = .kgGenerate ∧ s.genPort = .retry :: [] ∧ s'.genPort = [])
      ∧ (start.status.busy = true ∧ start.st = .dispatch ∧ start.status.configured = true ∧ start.build.keygen = true
        ∧ start.genPort = [])
      ∧ (Calls .keygen answered ∧ answered.st ∉ answered.silent ∧ answered.st ∈ commandPath .keygen)
      ∧ (∀ f x, (held f x).st ∈ (held f x).silent) ∧ Calls .keygen (held .kgBasis s) ∧ Calls .verifyRec (held .vfTag s)
      ∧ Calls .loadSk (held .kyBasis s) ∧ Calls .sign (held .sgBasis coded) ∧ Calls .keygen (held .kgCommit keeping)
      ∧ Calls .loadPk (held .kyDecode (windowStore .pk [0x1A, 0x14, 0x00] keeping))
      ∧ Calls .loadSk (held .kyDecode coded) ∧ Calls .storeSk (held .kyEncode coded) ∧ Calls .sign (held .sgEncode coded)
      ∧ Calls .verify (held .vfDecode coded)
      ∧ (¬Calls .verify (held .dispatch s) ∧ Fsm.dispatch ∈ commandPath .verify)
      ∧ ¬Calls .loadPk (held .kyDecode keeping) ∧ Fsm.kyDecode ∈ commandPath .loadPk := by
  refine ⟨by decide, by decide, ⟨.inl (by decide), by decide, by decide⟩, fun f x => by simp, .inl (by decide), .inl (by decide), .inr (.inl (by decide)),
    .inr (.inr (.inl (by decide))), .inr (.inr (.inr (.inl (by decide)))),
    .inr (.inr (.inr (.inr (.inl ⟨by decide, by decide, toyH, by decide +kernel, by decide⟩)))),
    .inr (.inr (.inr (.inr (.inr (.inl (by decide)))))), .inr (.inr (.inr (.inr (.inr (.inl (by decide)))))),
    .inr (.inr (.inr (.inr (.inr (.inr (by decide)))))), .inr (.inr (.inr (.inr (.inr (.inr (by decide)))))),
    ⟨by simp [Calls], by decide⟩, ?_, by decide⟩
  rintro (h | h | h | h | ⟨-, -, x, h, -⟩ | h | h)
  · revert h; decide
  · revert h; decide
  · revert h; decide
  · revert h; decide
  · have e : unpackWindow Config.collab { cmdIn .keygen (idle .plain true false false) with
        build := { toyBuild with keepNtt := true }, st := .kyDecode, genPort := [.retry], silent := [.kyDecode] } .pk
        (pkParts (idle .plain true false false)) = none := by decide +kernel
    cases e.symm.trans h
  · revert h; decide
  · revert h; decide

theorem witness_AcceptanceIsTheDeviationTest : 1 ≤ toyPlain.n ∧ (0 : Rat) ≤ 24 := by decide +kernel

/-- A key that loads, and a window that does not unpack (SK_LEN = 0). -/
theorem witness_LoadSkInstallsTheKey :
    let s := cmdIn .loadSk (windowStore .sk toySkBytes (idle .plain true false false))
    let s' := cmdIn .loadSk (idle .plain true false false)
    (AtDispatch s ∧ s.status.configured = true ∧ s.skLen.toNat ≤ s.build.skCap ∧ s.silent = []
        ∧ unpackWindow Config.collab s .sk (keyParts s)
          = some [toyKey.f, toyKey.g, toyKey.bigF, toyKey.bigG])
      ∧ (AtDispatch s' ∧ s'.status.configured = true ∧ s'.skLen.toNat ≤ s'.build.skCap ∧ s'.silent = []
        ∧ unpackWindow Config.collab s' .sk (keyParts s') = none) := by
  unfold AtDispatch
  decide +kernel

/-- A key that loads, and one with a coefficient that is Q, where the transform would not answer. -/
theorem witness_LoadPkInstallsTheKey :
    let s := cmdIn .loadPk (windowStore .pk [0x1A, 0x14, 0x00] (idle .plain true false false))
    let s' := cmdIn .loadPk (windowStore .pk [0x8C, 0x00, 0x00] { idle .plain true false false with silent := [.kyDecode] })
    (AtDispatch s ∧ s.status.configured = true ∧ s.pkLen.toNat ≤ s.build.pkCap ∧ s.silent = []
        ∧ unpackWindow Config.collab s .pk (pkParts s) = some [toyH] ∧ ∀ x ∈ toyH, x < s.ps.q)
      ∧ (AtDispatch s' ∧ s'.status.configured = true ∧ s'.pkLen.toNat ≤ s'.build.pkCap
        ∧ unpackWindow Config.collab s' .pk (pkParts s') = some [[17, 16, 0, 0]]
        ∧ (s'.ps.q : Int) ≤ 17) := by
  unfold AtDispatch
  decide +kernel

theorem witness_StoreSkWritesTheWireForm :
    let s := cmdIn .storeSk (idle .plain true true false)
    AtDispatch s ∧ s.status.configured = true ∧ s.status.skValid = true ∧ s.silent = []
      ∧ (wireSk s).length ≤ s.build.skCap := by
  unfold AtDispatch
  decide +kernel

theorem witness_StorePkWritesTheWireForm :
    let s := cmdIn .storePk (idle .plain true false true)
    AtDispatch s ∧ s.status.configured = true ∧ s.status.pkValid = true := by
  unfold AtDispatch
  decide +kernel

/-- A full window and an empty store. -/
theorem witness_WindowStoreWritesAndZeroes :
    let s := msgIn [0xAB] (idle .plain true false true)
    s.mem.wf ∧ (List.replicate 16 (0xEE : Byte)).length = windowCap s.build .msg
      ∧ ([] : List Byte).length ≤ windowCap s.build .msg := by decide +kernel

theorem witness_LoadSkRestoresWhatStoreSkWrote :
    let s := cmdIn .storeSk (idle .plain true true false)
    AtDispatch s ∧ s.status.configured = true ∧ s.status.skValid = true ∧ s.acfg.skCoding = .none
      ∧ s.silent = [] ∧ s.build.wf = true ∧ s.mem.wf ∧ storageFits s.build s.acfg.variant s.ps = true ∧ KeyInRange s.ps s.sk := by
  unfold AtDispatch KeyInRange SignedVec
  decide +kernel

/-- With a sample and with a failed one. -/
theorem witness_SignStoresTheCentredSample :
    let s := cmdIn .sign (msgIn [0x61] { idle .plain false true false with sampPort := [.ok [1, -2, 0, 1] []] })
    let s' := cmdIn .sign { idle .plain true true false with sampPort := [.fail] }
    (SignReady .plain s ∧ s.sampPort = .ok [1, -2, 0, 1] [] :: [])
      ∧ SignReady .plain s' ∧ s'.sampPort = .fail :: [] := by
  unfold SignReady Fits AtDispatch
  decide +kernel

theorem witness_SignRecStoresAndCompacts :
    let s := cmdIn .signRec (msgIn [0xAB] { idle .recovery false true false with sampPort := [.ok [1] [2]] })
    SignReady .recovery s ∧ s.build.wf = true ∧ s.mem.wf ∧ s.sampPort = .ok [1] [2] :: [] := by
  unfold SignReady Fits AtDispatch
  decide +kernel

/-- In transient mode for each of the three commands; in cache mode with the basis of the key for SIGN; and for the matrix the
toy build's layout, in which row 0 has a row below it. -/
theorem witness_SamplerIsAskedAsTheRulesSay :
    let sign := cmdIn .sign (idle .plain false true false)
    let signRec := cmdIn .signRec (idle .recovery false true false)
    let keygen := cmdIn .keygen { idle .plain false false false with genPort := [.cand toyCandidate] }
    let cached := { cmdIn .sign (idle .plain true true false) with
      basis := basisFor Config.collab (idle .plain true true false) toyKey
      status := { (cmdIn .sign (idle .plain true true false)).status with basisValid := true } }
    (BasisInv sign ∧ sign.sampPort = [] ∧ SignReady .plain sign)
      ∧ (BasisInv signRec ∧ signRec.sampPort = [] ∧ SignReady .recovery signRec)
      ∧ (BasisInv keygen ∧ keygen.sampPort = [] ∧ Fits keygen ∧ AtDispatch keygen ∧ keygen.status.configured = true
        ∧ keygen.build.keygen = true ∧ keygen.silent = [] ∧ keygen.genPort = .cand toyCandidate :: [])
      ∧ (BasisInv cached ∧ cached.sampPort = [] ∧ SignReady .plain cached ∧ cached.acfg.keep = true)
      ∧ sign.build.basisLayout = .ntru ∧ 1 ≤ sign.ps.n ∧ 0 + 1 < sign.ps.n ∧ sign.build.ringPoly = .negacyclic := by
  have off : ∀ s : State, s.status.basisValid = false → s.acfg.keep = false → s.st = .dispatch → BasisInv s := by
    intro s h hk h'
    simp [BasisInv, h, hk, h']
  refine ⟨⟨off _ rfl rfl rfl, rfl, by unfold SignReady Fits AtDispatch; decide +kernel⟩,
    ⟨off _ rfl rfl rfl, rfl, by unfold SignReady Fits AtDispatch; decide +kernel⟩,
    ⟨off _ rfl rfl rfl, rfl, by unfold Fits; decide +kernel, ⟨rfl, rfl⟩, rfl, rfl, rfl, rfl⟩, ⟨?_, rfl,
    ⟨by unfold Fits; exact ⟨by decide, by decide, by decide, by decide, by decide⟩, ⟨rfl, rfl⟩, rfl, rfl, rfl, rfl,
      by decide, rfl⟩, rfl⟩, by decide⟩
  exact ⟨fun _ => ⟨rfl, rfl, rfl⟩, fun _ _ h => by revert h; decide, fun _ _ h => by revert h; decide,
    fun _ h => by revert h; decide, fun _ _ => .inl rfl⟩

/-- A signature that decodes and one that does not. -/
theorem witness_VerifyDecidesByTheNorm :
    let s := cmdIn .verify (sigIn [0x0F, 0x80, 0x10] (msgIn [0x61, 0x62, 0x63] (idle .plain false false true)))
    let s' := cmdIn .verify (idle .plain false false true)
    (VerifyReady .plain s ∧ unpackWindow Config.collab s .sig [sigPart s] = some [[1, -2, 0, 1]])
      ∧ VerifyReady .plain s' ∧ unpackWindow Config.collab s' .sig [sigPart s'] = none := by
  unfold VerifyReady Fits AtDispatch
  decide +kernel

theorem witness_VerifyRecDecidesInOrder :
    let s := cmdIn .verifyRec (sigIn [0x08, 0x3E, 0x21, 0x00, 0xA8] (idle .recovery false false true))
    let s' := cmdIn .verifyRec (idle .recovery false false true)
    (VerifyReady .recovery s
        ∧ unpackWindow Config.collab s .sig [sigPart s, sigPart s]
          = some [[1, 0, -1, 2], [2, 0, 5, 8]])
      ∧ VerifyReady .recovery s'
      ∧ unpackWindow Config.collab s' .sig [sigPart s', sigPart s'] = none := by
  unfold VerifyReady Fits AtDispatch
  decide +kernel

/-- VERIFY and VERIFY_REC of an empty signature (V4). -/
theorem witness_RejectionsAreUniform :
    let s := cmdIn .verify (idle .plain false false true)
    let s' := cmdIn .verifyRec (idle .recovery false false true)
    (AtDispatch s ∧ s.status.reject = false ∧ ∃ t, t.status.reject = true ∧ exec .verify s = .next t)
      ∧ AtDispatch s' ∧ s'.status.reject = false ∧ ∃ t, t.status.reject = true ∧ exec .verifyRec s' = .next t :=
  ⟨⟨⟨rfl, rfl⟩, rfl, _, by decide +kernel, rfl⟩, ⟨rfl, rfl⟩, rfl, _, by decide +kernel, rfl⟩

/-- VR5, at the bound exactly; and a plain s1 whose own norm, 225, is above the bound whatever the oracle says. -/
theorem witness_NormAtTheBoundIsRejected :
    let s := cmdIn .verifyRec (sigIn [0x29, 0x40, 0x02, 0x94, 0x00] (idle .recovery false false true))
    let s' := cmdIn .verify (sigIn [0x78, 0x00, 0x00] (idle .plain false false true))
    (VerifyReady .recovery s ∧ s.ps.bdSq = sqNorm s.ps.n [5, 5, 0, 0] [5, 5, 0, 0]
        ∧ unpackWindow Config.collab s .sig [sigPart s, sigPart s]
          = some [[5, 5, 0, 0], [5, 5, 0, 0]])
      ∧ (VerifyReady .plain s' ∧ unpackWindow Config.collab s' .sig [sigPart s'] = some [[15, 0, 0, 0]]
        ∧ ∀ s2 : List Int, s'.ps.bdSq ≤ sqNorm s'.ps.n [15, 0, 0, 0] s2) := by
  refine ⟨by unfold VerifyReady Fits AtDispatch; decide +kernel,
    by unfold VerifyReady Fits AtDispatch; decide +kernel, by decide +kernel, fun s2 => ?_⟩
  show (100 : Int) ≤ 225 + ([coef s2 0 * coef s2 0, coef s2 1 * coef s2 1, coef s2 2 * coef s2 2,
    coef s2 3 * coef s2 3]).sum
  have := mul_self_nonneg (coef s2 0)
  have := mul_self_nonneg (coef s2 1)
  have := mul_self_nonneg (coef s2 2)
  have := mul_self_nonneg (coef s2 3)
  simp only [List.sum_cons, List.sum_nil]
  omega

theorem witness_CentringIsSymmetricAndFits : toyPlain.wf .plain = true ∧ 3 < toyPlain.n := by decide +kernel

/-- The first coefficient, whose terms but one wrap around, and the last, none of whose terms does. -/
theorem witness_NegacyclicLoopIsTheQuotientProduct : 0 < toyPlain.n ∧ 3 < toyPlain.n := by decide

/-- BD = 10 of the toy set, for any real bound and as the set's own. -/
theorem witness_NormOkIsTheEuclideanBound :
    toyPlain.wf .plain = true ∧ (0 : ℝ) ≤ 10 ∧ toyPlain.bdSq = ⌈(10 : ℝ) ^ 2⌉₊ := by
  refine ⟨by decide +kernel, by norm_num, ?_⟩
  rw [show ((10 : ℝ) ^ 2) = ((100 : Nat) : ℝ) by norm_num, Nat.ceil_natCast]
  rfl

/-- The extreme pattern and the extreme values of a field of 5 bits; an unpacked signature, with both pad bits and both
bytes of the schema's last one in range. -/
theorem witness_BitStreamsReadBack :
    31 < 2 ^ 5 ∧ 1 ≤ 5 ∧ -(2 ^ (5 - 1) : Int) ≤ -16 ∧ (-16 : Int) < 2 ^ (5 - 1) ∧ (15 : Int) < 2 ^ (5 - 1)
      ∧ 0 < [true].length ∧ (∀ e ∈ [sigElem toyPlain Acfg.zero], e.coding = .none)
      ∧ unpack toyCollab .msbFirst 4 [0x0F, 0x80, 0x10] [sigElem toyPlain Acfg.zero] = some [[1, -2, 0, 1]]
      ∧ [sigElem toyPlain Acfg.zero][0]? = some (sigElem toyPlain Acfg.zero)
      ∧ [[(1 : Int), -2, 0, 1]][0]? = some [1, -2, 0, 1] := by decide +kernel

/-- V2: one byte too many; V3: a pad bit that is 1. -/
theorem test_unpack_is_strict :
    unpack toyCollab .msbFirst 4 [0x0F, 0x80, 0x10, 0x00] [sigElem toyPlain Acfg.zero] = none
      ∧ unpack toyCollab .msbFirst 4 [0x0F, 0x80, 0x11] [sigElem toyPlain Acfg.zero] = none := by decide +kernel

/-- The toy recovery set: W = 4, three fields, L1 = 12. The last bit of the last field; a message of 1 byte, all of it m1, and
one of 2 bytes, which leaves one byte of m2 with the last bit of it in range; in a merge with that byte, the last bit of m1,
the first of m2 and the last of the message. -/
theorem witness_MergeUndoesCompact :
    let w := toyRecovery.qBits - 1
    let l1 := (toyRecovery.n - toyRecovery.k) * w
    (2 < toyRecovery.n - toyRecovery.k ∧ 3 < w)
      ∧ 8 * [(0xAB : Byte)].length ≤ l1
      ∧ (¬8 * [(0xAB : Byte), 0xCD].length ≤ l1 ∧ l1 ≤ 8 * [(0xAB : Byte), 0xCD].length
        ∧ 7 < 8 * (compact .msbFirst toyRecovery [0xAB, 0xCD]).length)
      ∧ 11 < l1 ∧ ¬12 < l1 ∧ 15 < 8 * (l1 / 8 + [(0xD0 : Byte)].length) := by decide +kernel

/-- S1 and V1: for the toy functions, the sampler's answer meets its contract with s2 = [-6, 0, 1, -2]. -/
theorem witness_PlainSignatureIsAccepted :
    let s := cmdIn .sign (msgIn [0x61, 0x62, 0x63] { idle .plain false true true with
      sampPort := [.ok [1, -2, 0, 1] []] })
    SignReady .plain s ∧ s.build.verify = true ∧ s.status.pkValid = true ∧ s.acfg.sigCoding = .none
      ∧ s.build.wf = true ∧ s.mem.wf ∧ storageFits s.build s.acfg.variant s.ps = true
      ∧ s.sampPort = .ok [1, -2, 0, 1] [] :: []
      ∧ Machine.normalize s.ps (vecAdd s.ps.n (ringMul s.build.ringPoly s.ps s.pk [1, -2, 0, 1]) [-6, 0, 1, -2])
        = plainTarget toyCollab s (message s)
      ∧ sqNorm s.ps.n (center s.ps [1, -2, 0, 1]) (center s.ps [-6, 0, 1, -2]) < s.ps.bdSq := by
  unfold SignReady Fits AtDispatch
  decide +kernel

/-- SR1 and VR1. -/
theorem witness_RecoverySignatureReturnsTheMessage :
    let s := cmdIn .signRec (msgIn [0xAB, 0xCD, 0xEF] { idle .recovery false true true with
      sampPort := [.ok [1, 0, -1, 2] [2, 0, 5, 8]] })
    SignReady .recovery s ∧ s.build.verify = true ∧ s.status.pkValid = true ∧ s.acfg.sigCoding = .none
      ∧ s.build.wf = true ∧ s.mem.wf ∧ storageFits s.build s.acfg.variant s.ps = true
      ∧ s.sampPort = .ok [1, 0, -1, 2] [2, 0, 5, 8] :: []
      ∧ Machine.normalize s.ps (vecAdd s.ps.n (ringMul s.build.ringPoly s.ps s.pk [1, 0, -1, 2]) [2, 0, 5, 8])
        = recoveryTarget toyCollab s (message s)
      ∧ sqNorm s.ps.n (center s.ps [1, 0, -1, 2]) (center s.ps [2, 0, 5, 8]) < s.ps.bdSq
      ∧ (s.ps.n - s.ps.k) * (s.ps.qBits - 1) / 8 ≤ s.msgLen.toNat := by
  unfold SignReady Fits AtDispatch
  decide +kernel

/-- STORE_PK and the first address past PK_CAP. -/
theorem witness_CommandsWriteOnlyTheirWindows :
    let s := cmdIn .storePk (idle .plain true false true)
    AtDispatch s ∧ ConfigInv s ∧ s.mem.wf ∧ Instr.storePk ≠ .destroy ∧ (∃ t, exec .storePk s = .next t)
      ∧ ∀ win ∈ writtenWindows .storePk, ¬InWindow s.build win 0x30004 := by
  refine ⟨⟨rfl, rfl⟩, ⟨fun _ => by decide +kernel, fun e => (by cases e), fun _ e => (by cases e)⟩, by decide, by decide,
    ⟨_, rfl⟩, fun win _ => in_no_window (by decide) win⟩

theorem witness_CommandsChangeOnlyTheirRegisters :
    ∃ t, exec .verify (cmdIn .verify (idle .plain true false true)) = .next t := ⟨_, rfl⟩

/-- Two states that differ in the key alone, and VERIFY. -/
theorem witness_OnlyStoreSkRevealsTheKey :
    let s := cmdIn .verify (idle .plain true true true)
    let s' := { s with sk := SecretKey.zero }
    Instr.verify ≠ .storeSk ∧ AtDispatch s ∧ publicPart s = publicPart s' ∧ (∃ t, exec .verify s = .next t)
      ∧ ∃ t, exec .verify s' = .next t := ⟨by decide, ⟨rfl, rfl⟩, rfl, ⟨_, rfl⟩, _, rfl⟩

/-- A block about to take a CMD write meets every invariant and steps on: for StepKeepsMemoryCanonical,
StepKeepsControlOnPath, TheBlockNeverStops, StepKeepsScratchScrubbed, StepKeepsOutcomesConsistent,
StepKeepsTheBasisOfTheKey, StepKeepsKeysInRange and StepKeepsTheConfiguration. -/
theorem witness_StepKeepsInvariants :
    let s := { State.powerOn toyBuild with inbox := [hostCmd .configure] }
    (∃ t, step s = .next t) ∧ s.mem.wf ∧ ControlInv s ∧ ScrubInv s ∧ OutcomeInv s ∧ BasisInv s ∧ KeyInv s
      ∧ ConfigInv s := by
  refine ⟨⟨_, rfl⟩, by decide, ⟨fun _ => rfl, fun e => (by cases e)⟩, ⟨rfl, by decide, fun _ => ⟨rfl, rfl⟩⟩,
    ⟨by decide, by decide, by decide, fun e => (by cases e)⟩,
    ⟨fun e => (by cases e), fun e => (by cases e), fun e => (by cases e), fun e => (by cases e), fun e => (by cases e)⟩,
    ⟨by decide +kernel, fun e => (by cases e), fun e => (by cases e), fun e => (by cases e)⟩,
    ⟨fun e => (by cases e), fun _ => ⟨rfl, rfl, rfl, rfl⟩, fun e => (by cases e)⟩⟩

/-- In cache mode with the basis of the key, and with KEYGEN in KG_BASIS. -/
theorem witness_StepKeepsTheBasisOfTheKey :
    let s := { idle .plain true true false with
      basis := basisFor Config.collab (idle .plain true true false) toyKey
      status := { (idle .plain true true false).status with basisValid := true } }
    let k := { cmdIn .keygen (idle .plain true true false) with st := .kgBasis }
    (BasisInv s ∧ s.status.busy = false ∧ s.status.basisValid = true ∧ s.acfg.keep = true ∧ s.status.skValid = true)
      ∧ BasisInv k ∧ k.status.busy = true ∧ k.acfg.keep = true ∧ k.st = .kgBasis :=
  ⟨⟨⟨fun _ => ⟨rfl, rfl, rfl⟩, fun e => (by cases e), fun e => (by cases e), fun e => (by cases e), fun _ _ => .inl rfl⟩,
      rfl, rfl, rfl, rfl⟩,
    ⟨fun e => (by cases e), fun _ _ _ => rfl, fun _ _ h => (by revert h; decide), fun _ h => (by revert h; decide),
      fun _ _ => .inr ⟨rfl, by decide⟩⟩, rfl, rfl, rfl⟩

/-- A transition of VERIFY and of KEYGEN after which the command runs on, one of an illegal word, and an idle block; STATUS,
KG_ATTEMPTS and the last register. -/
theorem witness_RunningCommandShowsOnlyItsProgress :
    let verify := cmdIn .verify (idle .plain false false true)
    let keygen := cmdIn .keygen (idle .plain false false true)
    let illegal := startCommand 0x00000120 (idle .plain false false true)
    (decode verify.curCmd = .ok .verify ∧ ∃ t, advance .verify verify = .next t ∧ t.status.busy = true)
      ∧ (decode keygen.curCmd = .ok .keygen ∧ ∃ t, advance .keygen keygen = .next t ∧ t.status.busy = true)
      ∧ (decode illegal.curCmd = .error .reservedBits
          ∧ ∃ t, advanceIllegal illegal = .next t ∧ t.status.busy = true)
      ∧ (idle .plain false false true).status.busy = false ∧ (0x014 : BusAddr).toNat / 4 * 4 = 0x014
      ∧ (0x02F : BusAddr).toNat / 4 * 4 = 0x02C ∧ (0x067 : BusAddr).toNat < 0x068 :=
  ⟨⟨by decide, _, rfl, rfl⟩, ⟨by decide, _, rfl, rfl⟩, ⟨by decide, _, rfl, rfl⟩, rfl, by decide, by decide, by decide⟩

/-- SCRATCH of an idle block; a vector with the extreme values of a word of 32 bits, and another place. -/
theorem witness_StepKeepsScratchScrubbed :
    let s := idle .plain false false true
    let v : List Int := [-2 ^ 31, 2 ^ 31 - 1, 0, -1]
    ScrubInv s ∧ s.status.busy = false ∧ v.length ≤ s.build.nMax ∧ 1 ≤ s.build.scratchW
      ∧ (∀ x ∈ v, -(2 ^ (s.build.scratchW - 1) : Int) ≤ x ∧ x < 2 ^ (s.build.scratchW - 1))
      ∧ slotIndex .s1 ≠ slotIndex .target := by
  unfold ScrubInv
  decide +kernel

/-- R36, R137: inside a VERIFY that accepts, before its end, the host still sees the counters and outcome of the CMD write. -/
theorem test_reads_inside_a_command :
    let s := { cmdIn .verify (idle .plain false false true) with st := .finish }
    let t := { s with status := { s.status with accept := true }, verifiedCnt := 1 }
    (busReadData 0x014 t, busReadData 0x030 t) = (0x300300A1, 0) := by decide +kernel

end Sys2Proof.Tests
end

section
/-! The window write of every command, address by address (00_scope.md R13, 20_memory.md R39, 70_reset_and_hazards.md R147). -/

namespace Sys2Proof.Proofs.Scope

open Sys2Proof Sys2Proof.Machine Sys2Proof.Claims

/-- R39, R147: inside the window a store leaves byte k of the data, and 0 past the data's end. -/
theorem readByte_windowStore_add {s : State} (hwf : s.mem.wf) (win : Window) (bytes : List Byte) {k : Nat}
    (hk : k < windowCap s.build win) :
    readByte (windowStore win bytes s).mem (windowBase win + k) = bytes.getD k 0 := by
  rw [readByte_windowStore hwf]
  by_cases hdata : k < bytes.length
  · rw [if_pos (by omega), Nat.add_sub_cancel_left]
  · rw [if_neg (by omega), if_pos (by omega), List.getD_eq_default _ _ (by omega)]

/-- R39: a store of bytes that fit the window leaves every address outside it as it was. -/
theorem readByte_windowStore_of_not_inWindow {s : State} (hwf : s.mem.wf) {win : Window} {bytes : List Byte}
    (hfit : bytes.length ≤ windowCap s.build win) {a : Nat} (ha : ¬InWindow s.build win a) :
    readByte (windowStore win bytes s).mem a = readByte s.mem a := by
  unfold InWindow at ha
  rw [readByte_windowStore hwf, if_neg (by omega), if_neg (by omega)]

/-- Settles O32: the read rule of a window store, inside and outside the window, and the two rules of its length register. -/
theorem windowStoreWritesAndZeroes : Obligations.WindowStoreWritesAndZeroes := by
  intro s win bytes hwf hfit
  exact ⟨fun _ hk => readByte_windowStore_add hwf win bytes hk,
    fun _ ha => readByte_windowStore_of_not_inWindow hwf hfit ha,
    windowLen_windowStore win bytes s,
    fun _ hne => windowLen_windowStore_ne hne bytes s⟩

end Sys2Proof.Proofs.Scope
end

section
/-! What a transition of a running command can do, once (10_state.md R34 - R36): the relation `Effect` and its proof for each
command. Every step invariant is derived from it. -/

namespace Sys2Proof.Proofs.Transitions

open Sys2Proof Sys2Proof.Machine Sys2Proof.Claims

/-- The first state of a command's rule, where DISPATCH leads when no check fails (R35). -/
def firstState : Instr → Fsm
  | .configure => .cfValidate
  | .destroy => .cfTeardown
  | .keygen => .kgGenerate
  | .loadSk | .loadPk => .kyDecode
  | .storeSk | .storePk => .kyEncode
  | .sign | .signRec => .sgOracle
  | .verify | .verifyRec => .vfDecode

/-- The states in which the store, sign and verify commands work, on SCRATCH, TBASIS and the windows alone. -/
def computing : List Fsm :=
  [.kyEncode, .sgOracle, .sgBasis, .sgSample, .sgEncode, .sgCompact, .vfDecode, .vfOracle, .vfNorm, .vfRecon, .vfRecover,
   .vfMerge, .vfTag]

/-- The states in which a command may raise a hard error. -/
def mayFail : List Fsm := .dispatch :: .cfValidate :: .kyDecode :: computing

/-- A code of a hard error: neither success nor a rejection (R120). -/
def Hard (e : ErrCode) : Prop := e ≠ .none ∧ e ≠ .verificationRejected

/-- A secret key is taken into SK_STORE (R105). -/
def takeKey (k : SecretKey) (s : State) : State := { s with sk := k, status := { s.status with skValid := true } }

/-- A public key is taken into PK_STORE (R106). -/
def takePk (C : Collab) (h : List Int) (s : State) : State :=
  { s with pk := h, pkNtt := nttOf C s h, status := { s.status with pkValid := true } }

/-- A candidate is counted and a cached basis is invalid from now on (R96, R97). -/
def countCandidate (r : List GenDraw) (s : State) : State :=
  { s with
    genPort := r
    kgAttempts := s.kgAttempts + 1
    status := { s.status with basisValid := if s.acfg.keep then false else s.status.basisValid }
    st := .kgBasis }

/-- The state KG_SAMPLE leads to: the sample beside the candidate, the basis released (R100). -/
def sampled (v : List Int) (r : List SampleDraw) (s : State) : State :=
  releaseBasis (scratchPut .s1 v { s with sampPort := r, st := .kgTest })

/-- What a store, sign or verify command can do on its way: vectors into SCRATCH, a sampler answer taken, TBASIS replaced,
bytes into a window, the next state entered. -/
inductive Works (s : State) : State → Prop where
  | start : Works s s
  | put {t : State} (h : Works s t) (slot : Slot) (v : List Int) : Works s (scratchPut slot v t)
  | draw {t : State} (h : Works s t) (r : List SampleDraw) : Works s { t with sampPort := r }
  | hold {t : State} (h : Works s t) (b : Basis) : Works s { t with tbasis := b }
  | store {t : State} (h : Works s t) (win : Window) (bytes : List Byte) : Works s (windowStore win bytes t)
  | enter {t : State} (h : Works s t) (f : Fsm) (hf : f ∈ computing) : Works s { t with st := f }

/-- Everything one transition of command `i` can do to the state. -/
inductive Effect (C : Collab) (s : State) : Instr → State → Prop where
  | waits (i : Instr) : Effect C s i s
  | enters (i : Instr) (hst : s.st = .dispatch) (hok : dispatchError i s = none) :
      Effect C s i { s with st := firstState i }
  | works (i : Instr) (hst : s.st ∈ computing) {t : State} (hw : Works s t) : Effect C s i t
  | finishes (i : Instr) (hst : s.st ∈ computing) {t : State} (hw : Works s t) : Effect C s i (finishOk t)
  | fails (i : Instr) (hst : s.st ∈ mayFail) {t : State} (hw : Works s t) {e : ErrCode} (he : Hard e) :
      Effect C s i (raiseError e t)
  | accepts (i : Instr) (hst : s.st ∈ computing) {t : State} (hw : Works s t) : Effect C s i (accept t)
  | rejects (i : Instr) (hst : s.st ∈ computing) {t : State} (hw : Works s t) : Effect C s i (reject t)
  | latches (hst : s.st = .cfValidate) {a : Acfg} (ha : cfgValidate s.build s.cfg0 s.cfg1 = .ok a) :
      Effect C s .configure (finishOk (latchConfig a s))
  | tearsDown (hst : s.st = .cfTeardown) : Effect C s .destroy (finishOk (tearDown s))
  | retries (r : List GenDraw) (hst : s.st = .kgGenerate) : Effect C s .keygen { s with genPort := r }
  | draws (c : Candidate) (r : List GenDraw) (hst : s.st = .kgGenerate) :
      Effect C s .keygen (putCandidate (contractCandidate s.ps c) (countCandidate r s))
  | buildsCandidate (hst : s.st = .kgBasis) : Effect C s .keygen (kgBasisStep C s)
  | samples (v : List Int) (r : List SampleDraw) (hst : s.st = .kgSample) :
      Effect C s .keygen (sampled v r s)
  | restarts (hst : s.st ∈ [Fsm.kgSample, .kgTest]) {t : State} (hw : Works s t) : Effect C s .keygen (kgRestart t)
  | passes (hst : s.st = .kgTest) : Effect C s .keygen { s with st := .kgCommit }
  | commits (hst : s.st = .kgCommit) : Effect C s .keygen (kgCommitStep C s)
  | loadsCached (hst : s.st = .kyDecode) {k : SecretKey} (hkeep : s.acfg.keep = true)
      (hk : unpackWindow C s .sk (skSchema s.ps s.acfg) = some [k.f, k.g, k.bigF, k.bigG]) :
      Effect C s .loadSk { invalidateBasis (takeKey k s) with st := .kyBasis }
  | loadsTransient (hst : s.st = .kyDecode) {k : SecretKey} (hkeep : s.acfg.keep = false)
      (hk : unpackWindow C s .sk (skSchema s.ps s.acfg) = some [k.f, k.g, k.bigF, k.bigG]) :
      Effect C s .loadSk (finishOk (installKey C (takeKey k s)))
  | installs (hst : s.st = .kyBasis) : Effect C s .loadSk (finishOk (installKey C s))
  | loadsPk (hst : s.st = .kyDecode) {h : List Int} (hh : decodedPk C s = some h) :
      Effect C s .loadPk (finishOk (takePk C h s))
  | ends (i : Instr) (hst : s.st = .finish) :
      Effect C s i { endCommand s with curCmd := if i = .destroy then 0 else s.curCmd }

/-! ### What the work of a command leaves alone -/

namespace Works

variable {s t : State}

theorem release (h : Works s t) : Works s (releaseBasis t) := by
  unfold releaseBasis
  split
  · exact h
  · exact h.hold _

theorem getBasis (h : Works s t) (C : Collab) : Works s (getBasis C t) := by
  unfold Machine.getBasis
  split
  · exact h
  · exact h.hold _

/-- Only SCRATCH, TBASIS, the windows with their lengths, the sampler's answers and `st` change. -/
theorem eq (h : Works s t) :
    t = { s with
      scratch := t.scratch, tbasis := t.tbasis, mem := t.mem, msgLen := t.msgLen, sigLen := t.sigLen, pkLen := t.pkLen
      skLen := t.skLen, sampPort := t.sampPort, st := t.st } := by
  induction h with
  | start => rfl
  | put _ slot v ih => rw [ih]; rfl
  | draw _ r ih => rw [ih]
  | hold _ b ih => rw [ih]
  | store _ win bytes ih => rw [ih]; cases win <;> rfl
  | enter _ f _ ih => rw [ih]

theorem build (h : Works s t) : t.build = s.build := by rw [h.eq]
theorem status (h : Works s t) : t.status = s.status := by rw [h.eq]
theorem acfg (h : Works s t) : t.acfg = s.acfg := by rw [h.eq]
theorem ps (h : Works s t) : t.ps = s.ps := ps_congr h.build h.acfg
theorem sk (h : Works s t) : t.sk = s.sk := by rw [h.eq]
theorem pk (h : Works s t) : t.pk = s.pk := by rw [h.eq]
theorem basis (h : Works s t) : t.basis = s.basis := by rw [h.eq]
theorem ie (h : Works s t) : t.ie = s.ie := by rw [h.eq]
theorem kgAttempts (h : Works s t) : t.kgAttempts = s.kgAttempts := by rw [h.eq]

/-- The work of a command stays among its working states. -/
theorem st_mem (h : Works s t) (hs : s.st ∈ computing) : t.st ∈ computing := by
  induction h with
  | start => exact hs
  | put _ _ _ ih | draw _ _ ih | hold _ _ ih => exact ih
  | store _ win bytes ih => rwa [windowStore_st]
  | enter _ f hf _ => exact hf

end Works

/-- `t` has the configuration, the secret key and the basis of `s`, with their valid bits. -/
structure SameSecrets (s t : State) : Prop where
  build : t.build = s.build
  acfg : t.acfg = s.acfg
  sk : t.sk = s.sk
  basis : t.basis = s.basis
  skValid : t.status.skValid = s.status.skValid
  basisValid : t.status.basisValid = s.status.basisValid

/-- And the public key with its valid bit, and CONFIGURED. -/
structure SameStores (s t : State) : Prop extends SameSecrets s t where
  pk : t.pk = s.pk
  configured : t.status.configured = s.status.configured
  pkValid : t.status.pkValid = s.status.pkValid

namespace SameStores

variable {s t u : State}

theorem ps (h : SameStores s t) : t.ps = s.ps := ps_congr h.build h.acfg

theorem of_works (h : Works s t) : SameStores s t :=
  ⟨⟨h.build, h.acfg, h.sk, h.basis, by rw [h.status], by rw [h.status]⟩, h.pk, by rw [h.status], by rw [h.status]⟩

theorem trans (h : SameStores s t) (h' : SameStores t u) : SameStores s u :=
  ⟨⟨h'.build.trans h.build, h'.acfg.trans h.acfg, h'.sk.trans h.sk, h'.basis.trans h.basis,
    h'.skValid.trans h.skValid, h'.basisValid.trans h.basisValid⟩, h'.pk.trans h.pk,
    h'.configured.trans h.configured, h'.pkValid.trans h.pkValid⟩

/-! Entering a state, the four ends of a command's work, giving up a candidate and the ending sequence leave the stores
alone. -/

theorem entered (s : State) (f : Fsm) : SameStores s { s with st := f } :=
  ⟨⟨rfl, rfl, rfl, rfl, rfl, rfl⟩, rfl, rfl, rfl⟩
theorem finishOk (h : SameStores s t) : SameStores s (Machine.finishOk t) :=
  h.trans ⟨⟨rfl, rfl, rfl, rfl, rfl, rfl⟩, rfl, rfl, rfl⟩
theorem raiseError (h : SameStores s t) (e : ErrCode) : SameStores s (Machine.raiseError e t) :=
  h.trans ⟨⟨rfl, rfl, rfl, rfl, rfl, rfl⟩, rfl, rfl, rfl⟩
theorem accept (h : SameStores s t) : SameStores s (Machine.accept t) :=
  h.trans ⟨⟨rfl, rfl, rfl, rfl, rfl, rfl⟩, rfl, rfl, rfl⟩
theorem reject (h : SameStores s t) : SameStores s (Machine.reject t) :=
  h.trans ⟨⟨rfl, rfl, rfl, rfl, rfl, rfl⟩, rfl, rfl, rfl⟩
theorem kgRestart (h : SameStores s t) : SameStores s (Machine.kgRestart t) :=
  h.trans ⟨⟨rfl, rfl, rfl, rfl, rfl, rfl⟩, rfl, rfl, rfl⟩
theorem ended (s : State) (w : Word) : SameStores s { endCommand s with curCmd := w } :=
  ⟨⟨rfl, rfl, rfl, rfl, rfl, rfl⟩, rfl, rfl, rfl⟩

end SameStores

/-! ### Every transition has one of these effects -/

/-- Every code of a failed DISPATCH check is that of a hard error (R122). -/
theorem dispatchError_hard {i : Instr} {s : State} {e : ErrCode} (h : dispatchError i s = some e) : Hard e := by
  have checks : ∀ i, configuredChecks i s = some e → Hard e := by
    intro i h
    unfold configuredChecks at h
    repeat' split at h
    all_goals cases h <;> exact ⟨by decide, by decide⟩
  unfold dispatchError at h
  split at h
  · split at h <;> cases h
    exact ⟨by decide, by decide⟩
  · cases h
  · exact checks _ h

/-- Every code of CfgValidate is that of a hard error (R84). -/
theorem cfgValidate_hard {b : Build} {v w : Word} {e : ErrCode} (h : cfgValidate b v w = .error e) : Hard e := by
  unfold cfgValidate at h
  repeat' split at h
  all_goals cases h <;> exact ⟨by decide, by decide⟩

/-- Beyond DISPATCH a configured block runs the command, or the command needs no configuration (R122). -/
theorem dispatch_configured {i : Instr} {s : State} (h : dispatchError i s = none) (hi : i ≠ .configure)
    (hd : i ≠ .destroy) : s.status.configured = true := by
  have checks : configuredChecks i s = none := by
    cases i <;> first | contradiction | exact h
  unfold configuredChecks at checks
  split at checks
  · cases checks
  · simpa using ‹¬(!s.status.configured) = true›

theorem computing_mayFail {f : Fsm} (h : f ∈ computing) : f ∈ mayFail :=
  List.mem_cons_of_mem _ (List.mem_cons_of_mem _ (List.mem_cons_of_mem _ h))

theorem computing_of {s : State} {f : Fsm} (h : s.st = f) (hf : f ∈ computing := by decide) : s.st ∈ computing := h ▸ hf

variable (C : Collab) (s : State)

theorem dispatch_effect (i : Instr) (h : s.st = .dispatch) : Effect C s i (dispatchStep i (firstState i) s) := by
  cases hd : dispatchError i s with
  | none => rw [dispatchStep_ok hd]; exact .enters i h hd
  | some e => rw [dispatchStep_error hd]; exact .fails i (by simp [mayFail, h]) .start (dispatchError_hard hd)

theorem cfValidate_effect (h : s.st = .cfValidate) : Effect C s .configure (cfValidateStep s) := by
  unfold cfValidateStep
  split
  · exact .fails _ (by simp [mayFail, h]) .start (cfgValidate_hard ‹_›)
  · exact .latches h ‹_›

theorem kgGenerate_effect (h : s.st = .kgGenerate) : Effect C s .keygen (kgGenerateStep s) := by
  unfold kgGenerateStep
  split
  · exact .waits _
  · exact .retries _ h
  · exact .draws _ _ h

theorem kgSample_effect (h : s.st = .kgSample) : Effect C s .keygen (kgSampleStep s) := by
  unfold kgSampleStep
  split
  · exact .waits _
  · exact .restarts (by simp [h]) (Works.start.draw _).release
  · exact .samples _ _ h

theorem kgTest_effect (h : s.st = .kgTest) : Effect C s .keygen (kgTestStep C s) := by
  unfold kgTestStep
  split
  · exact .passes h
  · exact .restarts (by simp [h]) .start

theorem loadSkDecode_effect (h : s.st = .kyDecode) : Effect C s .loadSk (loadSkDecodeStep C s) := by
  unfold loadSkDecodeStep
  split
  · rename_i f g bigF bigG hk
    cases hkeep : s.acfg.keep
    · exact .loadsTransient (k := ⟨f, g, bigF, bigG⟩) h hkeep hk
    · exact .loadsCached (k := ⟨f, g, bigF, bigG⟩) h hkeep hk
  · exact .fails _ (by simp [mayFail, h]) .start ⟨by decide, by decide⟩

theorem loadPkDecode_effect (h : s.st = .kyDecode) : Effect C s .loadPk (loadPkDecodeStep C s) := by
  unfold loadPkDecodeStep
  split
  · exact .loadsPk h ‹_›
  · exact .fails _ (by simp [mayFail, h]) .start ⟨by decide, by decide⟩

theorem storeSkEncode_effect (h : s.st ∈ computing) : Effect C s .storeSk (storeSkEncodeStep C s) := by
  unfold storeSkEncodeStep
  dsimp only
  split
  · exact .fails _ (computing_mayFail h) .start ⟨by decide, by decide⟩
  · exact .finishes _ h (.store .start _ _)

/-- A signing command without a signature fails with a zeroed SIG window (R109, R110). -/
theorem signFail_effect (i : Instr) (h : s.st ∈ computing) {t : State} (hw : Works s t) {e : ErrCode} (he : Hard e) :
    Effect C s i (signFail e t) :=
  .fails i (computing_mayFail h) (hw.store .sig []) he

theorem signSample_effect (i : Instr) (two : Bool) (h : s.st ∈ computing) : Effect C s i (signSampleStep two s) := by
  unfold signSampleStep
  split
  · exact .waits _
  · exact signFail_effect C s i h (Works.start.draw _).release ⟨by decide, by decide⟩
  · refine .works i h (Works.release ?_)
    have hw {r : List SampleDraw} : Works s { s with sampPort := r, st := .sgEncode } :=
      (Works.start.draw r).enter _ (by decide)
    split
    · exact (hw.put _ _).put _ _
    · exact hw.put _ _

/-- A stored signature leads on as the command says; one that does not fit fails (R109, R110). -/
theorem signEncode_effect (i : Instr) (bytes : List Byte) {andThen : State → State} (h : s.st ∈ computing)
    (hthen : Effect C s i (andThen (windowStore .sig bytes s))) : Effect C s i (signEncodeStep bytes andThen s) := by
  unfold signEncodeStep
  split
  · exact signFail_effect C s i h .start ⟨by decide, by decide⟩
  · exact hthen

theorem verifyDecode_effect (h : s.st ∈ computing) : Effect C s .verify (verifyDecodeStep C s) := by
  unfold verifyDecodeStep
  split
  · exact .works _ h ((Works.start.enter _ (by decide)).put _ _)
  · exact .rejects _ h .start

theorem verifyNorm_effect (h : s.st ∈ computing) : Effect C s .verify (verifyNormStep s) := by
  unfold verifyNormStep
  dsimp only
  split
  · exact .accepts _ h .start
  · exact .rejects _ h .start

/-- A rejection of VERIFY_REC zeroes the MSG window (R117, R128). -/
theorem rejectRec_effect (h : s.st ∈ computing) : Effect C s .verifyRec (rejectRec s) :=
  .rejects _ h (.store .start .msg [])

theorem verifyRecDecode_effect (h : s.st ∈ computing) : Effect C s .verifyRec (verifyRecDecodeStep C s) := by
  unfold verifyRecDecodeStep
  split
  · exact .works _ h (((Works.start.enter _ (by decide)).put _ _).put _ _)
  · exact rejectRec_effect C s h

theorem verifyRecNorm_effect (h : s.st ∈ computing) : Effect C s .verifyRec (verifyRecNormStep s) := by
  unfold verifyRecNormStep
  split
  · exact .works _ h (.enter .start _ (by decide))
  · exact rejectRec_effect C s h

theorem verifyRecover_effect (h : s.st ∈ computing) : Effect C s .verifyRec (verifyRecoverStep C s) := by
  unfold verifyRecoverStep
  dsimp only
  split
  · exact .works _ h (((Works.start.enter _ (by decide)).put _ _).put _ _)
  · exact rejectRec_effect C s h

theorem verifyMerge_effect (h : s.st ∈ computing) : Effect C s .verifyRec (verifyMergeStep s) := by
  unfold verifyMergeStep
  split
  · exact rejectRec_effect C s h
  · exact .works _ h (.enter .start _ (by decide))

theorem verifyTag_effect (h : s.st ∈ computing) : Effect C s .verifyRec (verifyTagStep C s) := by
  unfold verifyTagStep
  dsimp only
  split
  · exact .accepts _ h (.store .start _ _)
  · exact rejectRec_effect C s h

/-! One lemma a command, one line a state of its path: DISPATCH, the states of its rule, FINISH, any other state. -/

theorem configure_effect : Effect C s .configure (configureStep s) := by
  unfold configureStep
  split
  · exact dispatch_effect C s .configure ‹_›
  · exact cfValidate_effect C s ‹_›
  · exact .ends .configure ‹_›
  · exact .waits _

theorem destroy_effect : Effect C s .destroy (destroyStep s) := by
  unfold destroyStep
  split
  · exact dispatch_effect C s .destroy ‹_›
  · exact .tearsDown ‹_›
  · exact .ends .destroy ‹_›
  · exact .waits _

theorem keygen_effect : Effect C s .keygen (keygenStep C s) := by
  unfold keygenStep
  split
  · exact dispatch_effect C s .keygen ‹_›
  · exact kgGenerate_effect C s ‹_›
  · exact .buildsCandidate ‹_›
  · exact kgSample_effect C s ‹_›
  · exact kgTest_effect C s ‹_›
  · exact .commits ‹_›
  · exact .ends .keygen ‹_›
  · exact .waits _

theorem loadSk_effect : Effect C s .loadSk (loadSkStep C s) := by
  unfold loadSkStep
  split
  · exact dispatch_effect C s .loadSk ‹_›
  · exact loadSkDecode_effect C s ‹_›
  · exact .installs ‹_›
  · exact .ends .loadSk ‹_›
  · exact .waits _

theorem loadPk_effect : Effect C s .loadPk (loadPkStep C s) := by
  unfold loadPkStep
  split
  · exact dispatch_effect C s .loadPk ‹_›
  · exact loadPkDecode_effect C s ‹_›
  · exact .ends .loadPk ‹_›
  · exact .waits _

theorem storeSk_effect : Effect C s .storeSk (storeSkStep C s) := by
  unfold storeSkStep
  split
  · exact dispatch_effect C s .storeSk ‹_›
  · exact storeSkEncode_effect C s (computing_of ‹_›)
  · exact .ends .storeSk ‹_›
  · exact .waits _

theorem storePk_effect : Effect C s .storePk (storePkStep C s) := by
  unfold storePkStep
  split
  · exact dispatch_effect C s .storePk ‹_›
  · exact .finishes _ (computing_of ‹_›) (.store .start _ _)
  · exact .ends .storePk ‹_›
  · exact .waits _

theorem sign_effect : Effect C s .sign (signStep C s) := by
  unfold signStep
  split
  · exact dispatch_effect C s .sign ‹_›
  · exact .works _ (computing_of ‹_›) ((Works.start.enter _ (by decide)).put _ _)
  · exact .works _ (computing_of ‹_›) ((Works.start.getBasis C).enter _ (by decide))
  · exact signSample_effect C s _ _ (computing_of ‹_›)
  · exact signEncode_effect C s _ _ (computing_of ‹_›) (.finishes _ (computing_of ‹_›) (.store .start _ _))
  · exact .ends .sign ‹_›
  · exact .waits _

theorem signRec_effect : Effect C s .signRec (signRecStep C s) := by
  unfold signRecStep
  split
  · exact dispatch_effect C s .signRec ‹_›
  · exact .works _ (computing_of ‹_›) ((Works.start.enter _ (by decide)).put _ _)
  · exact .works _ (computing_of ‹_›) ((Works.start.getBasis C).enter _ (by decide))
  · exact signSample_effect C s _ _ (computing_of ‹_›)
  · exact signEncode_effect C s _ _ (computing_of ‹_›)
      (.works _ (computing_of ‹_›) ((Works.start.store _ _).enter _ (by decide)))
  · exact .finishes _ (computing_of ‹_›) (.store .start _ _)
  · exact .ends .signRec ‹_›
  · exact .waits _

theorem verify_effect : Effect C s .verify (verifyStep C s) := by
  unfold verifyStep
  split
  · exact dispatch_effect C s .verify ‹_›
  · exact verifyDecode_effect C s (computing_of ‹_›)
  · exact .works _ (computing_of ‹_›) ((Works.start.enter _ (by decide)).put _ _)
  · exact verifyNorm_effect C s (computing_of ‹_›)
  · exact .ends .verify ‹_›
  · exact .waits _

theorem verifyRec_effect : Effect C s .verifyRec (verifyRecStep C s) := by
  unfold verifyRecStep
  split
  · exact dispatch_effect C s .verifyRec ‹_›
  · exact verifyRecDecode_effect C s (computing_of ‹_›)
  · exact verifyRecNorm_effect C s (computing_of ‹_›)
  · exact .works _ (computing_of ‹_›) ((Works.start.enter _ (by decide)).put _ _)
  · exact verifyRecover_effect C s (computing_of ‹_›)
  · exact verifyMerge_effect C s (computing_of ‹_›)
  · exact verifyTag_effect C s (computing_of ‹_›)
  · exact .ends .verifyRec ‹_›
  · exact .waits _

/-- One transition of a command has one of the effects (R34, R55). -/
theorem transition_effect (i : Instr) : Effect C s i (transition C i s) := by
  cases i
  case configure => exact configure_effect C s
  case destroy => exact destroy_effect C s
  case keygen => exact keygen_effect C s
  case loadSk => exact loadSk_effect C s
  case loadPk => exact loadPk_effect C s
  case storeSk => exact storeSk_effect C s
  case storePk => exact storePk_effect C s
  case sign => exact sign_effect C s
  case signRec => exact signRec_effect C s
  case verify => exact verify_effect C s
  case verifyRec => exact verifyRec_effect C s

/-! ### The candidate in SCRATCH from KG_BASIS to KG_TEST -/

theorem kgBasisStep_build : (kgBasisStep C s).build = s.build := holdBasis_build _ s
theorem kgBasisStep_acfg : (kgBasisStep C s).acfg = s.acfg := holdBasis_acfg _ s
theorem kgBasisStep_sk : (kgBasisStep C s).sk = s.sk := holdBasis_sk _ s
theorem kgBasisStep_pk : (kgBasisStep C s).pk = s.pk := holdBasis_pk _ s
theorem kgBasisStep_status : (kgBasisStep C s).status = s.status := holdBasis_status _ s
theorem kgBasisStep_scratch : (kgBasisStep C s).scratch = putWords s.build .target (keygenTarget s.ps) s.scratch :=
  congrArg₂ (fun b x => putWords b .target (keygenTarget s.ps) x) (holdBasis_build _ s) (holdBasis_scratch _ s)

/-- KG_BASIS puts the target beside the candidate (R99). -/
theorem candidate_kgBasisStep :
    candidateKey (kgBasisStep C s) = candidateKey s ∧ candidateH (kgBasisStep C s) = candidateH s := by
  have hput := candidate_put (slot := .target) (by decide) (keygenTarget s.ps)
    { holdBasis (basisFor C s (candidateKey s)) s with st := .kgSample }
  have hheld : candidateKey { holdBasis (basisFor C s (candidateKey s)) s with st := .kgSample } = candidateKey s
      ∧ candidateH { holdBasis (basisFor C s (candidateKey s)) s with st := .kgSample } = candidateH s :=
    candidate_congr (holdBasis_build _ s) (holdBasis_acfg _ s) (holdBasis_scratch _ s)
  exact ⟨hput.1.trans hheld.1, hput.2.trans hheld.2⟩

variable (v : List Int) (r : List SampleDraw)

theorem sampled_build : (sampled v r s).build = s.build := releaseBasis_build _
theorem sampled_acfg : (sampled v r s).acfg = s.acfg := releaseBasis_acfg _
theorem sampled_sk : (sampled v r s).sk = s.sk := releaseBasis_sk _
theorem sampled_pk : (sampled v r s).pk = s.pk := releaseBasis_pk _
theorem sampled_status : (sampled v r s).status = s.status := releaseBasis_status _
theorem sampled_basis : (sampled v r s).basis = s.basis := releaseBasis_basis _
theorem sampled_scratch : (sampled v r s).scratch = putWords s.build .s1 v s.scratch := releaseBasis_scratch _
theorem sampled_st : (sampled v r s).st = .kgTest := releaseBasis_st _

theorem candidate_sampled :
    candidateKey (sampled v r s) = candidateKey s ∧ candidateH (sampled v r s) = candidateH s := by
  have hput := candidate_put (slot := .s1) (by decide) v { s with sampPort := r, st := .kgTest }
  have hrel : candidateKey (sampled v r s) = candidateKey (scratchPut .s1 v { s with sampPort := r, st := .kgTest })
      ∧ candidateH (sampled v r s) = candidateH (scratchPut .s1 v { s with sampPort := r, st := .kgTest }) :=
    candidate_congr (releaseBasis_build _) (releaseBasis_acfg _) (releaseBasis_scratch _)
  exact ⟨hrel.1.trans hput.1, hrel.2.trans hput.2⟩

end Sys2Proof.Proofs.Transitions
end

section
/-! The induction behind the step invariants, cut to what an invariant must say: the environment's moves, the CMD write, the
reset, and one transition. The control invariant (10_state.md R34) needs no more than the path of a command. -/

namespace Sys2Proof.Proofs.Invariants

open Sys2Proof Sys2Proof.Machine Sys2Proof.Claims Sys2Proof.Proofs.Transitions

/-- `t` is `s` but for what the environment moves outside a command: the configuration, CTRL and length registers, the window
bytes, the sticky STATUS bits the host clears or sets, and what is still to arrive. -/
def Outside (s t : State) : Prop :=
  t = { s with
    cfg0 := t.cfg0, cfg1 := t.cfg1, ie := t.ie, msgLen := t.msgLen, sigLen := t.sigLen, pkLen := t.pkLen
    skLen := t.skLen, mem := t.mem, genPort := t.genPort, sampPort := t.sampPort, silent := t.silent, turn := t.turn
    inbox := t.inbox, rdata := t.rdata
    status := { s.status with
      done := t.status.done, overrun := t.status.overrun, busErr := t.status.busErr } }

/-- A host event starts a command, resets the block, or stays outside the commands' state. -/
theorem host_cases {s t : State} (h : HostEffect s t) :
    (s.status.busy = false ∧ ∃ w, t = startCommand w s) ∨ t = resetBlock s ∨ Outside s t := by
  cases h with
  | start hb w => exact .inl ⟨hb, w, rfl⟩
  | reset => exact .inr (.inl rfl)
  | ignored | data | busErr | busErrData | overrun | cleared | config | enable | lengths | bytes =>
    exact .inr (.inr rfl)

/-- What the environment, CMD writes, the reset and transitions keep, every step keeps. -/
theorem step_keeps_moves {P : State → Prop} (hout : ∀ s t, Outside s t → P s → P t)
    (hstart : ∀ s w, s.status.busy = false → P s → P (startCommand w s)) (hreset : ∀ s, P s → P (resetBlock s))
    (htr : ∀ s i, onPath i s = true → decode s.curCmd = .ok i → P s → P (transition Config.collab i s))
    (hill : ∀ s e, s.status.busy = true → decode s.curCmd = .error e → P s → P (illegalStep s))
    {s t : State} (h : P s) (ht : step s = .next t) : P t := by
  refine step_keeps (fun s r => hout s _ rfl) (fun s => hout s _ rfl) ?_ (fun i s => htr s i) hill h ht
  intro s t he hs
  rcases host_cases he with ⟨hb, w, rfl⟩ | rfl | ho
  · exact hstart s w hb hs
  · exact hreset s hs
  · exact hout s t ho hs

/-- What an illegal word's transition does, that of a command can do too (R51). -/
theorem illegalStep_effect (C : Collab) (s : State) : Effect C s .configure (illegalStep s) := by
  rcases illegalStep_cases s with ⟨h, e⟩ | ⟨h, e⟩ | ⟨-, -, e⟩ <;> rw [e]
  · exact .fails _ (by simp [mayFail, h]) .start ⟨by decide, by decide⟩
  · exact .ends .configure h
  · exact .waits _

/-- The same with a transition's effects in place of the transition. -/
theorem step_keeps_effect {P : State → Prop} (hout : ∀ s t, Outside s t → P s → P t)
    (hstart : ∀ s w, s.status.busy = false → P s → P (startCommand w s)) (hreset : ∀ s, P s → P (resetBlock s))
    (heff : ∀ s i t, s.status.busy = true → Effect Config.collab s i t → P s → P t)
    {s t : State} (h : P s) (ht : step s = .next t) : P t := by
  refine step_keeps_moves hout hstart hreset (fun s i hp _ => ?_) (fun s _ hb _ => ?_) h ht
  · simp only [onPath, Bool.and_eq_true] at hp
    exact heff s i _ hp.1 (transition_effect Config.collab s i)
  · exact heff s _ _ hb (illegalStep_effect Config.collab s)

/-! ### The control invariant -/

/-- A command that has just ended leaves the block in its idle state (R34, R124). -/
theorem controlInv_of_ended {s : State} (hb : s.status.busy = false) (hst : s.st = idleState s.status) : ControlInv s :=
  ⟨fun _ => hst, fun h => absurd (hb.symm.trans h) (by decide)⟩

theorem controlInv_running {s : State} {i : Instr} (hb : s.status.busy = true) (hd : decode s.curCmd = .ok i)
    (hp : s.st ∈ commandPath i) : ControlInv s :=
  ⟨fun h => absurd (hb.symm.trans h) (by decide), fun _ => by rw [hd]; exact hp⟩

theorem controlInv_illegal {s : State} {e : DecodeError} (hb : s.status.busy = true) (hd : decode s.curCmd = .error e)
    (hst : s.st = .dispatch ∨ s.st = .finish) : ControlInv s :=
  ⟨fun h => absurd (hb.symm.trans h) (by decide), fun _ => by rw [hd]; exact hst⟩

/-- A new command is in DISPATCH, which is on every path (R18, R34). -/
theorem startCommand_control (w : Word) (s : State) : ControlInv (startCommand w s) := by
  cases hd : decode w with
  | ok i => exact controlInv_running rfl hd (by cases i <;> exact List.mem_cons_self)
  | error e => exact controlInv_illegal rfl hd (.inl rfl)

/-- A transition moves along the path of its command, or ends it (R34, R55). -/
theorem transition_control {s : State} {i : Instr} (hp : onPath i s = true) (hd : decode s.curCmd = .ok i) :
    ControlInv (transition Config.collab i s) := by
  simp only [onPath, Bool.and_eq_true, List.contains_iff_mem] at hp
  obtain ⟨hb, hst⟩ := hp
  by_cases hf : s.st = .finish
  · rw [transition_finish Config.collab i hf]
    exact controlInv_of_ended rfl rfl
  · exact controlInv_running ((transition_busy _ i s hf).trans hb)
      (((transition_keeps _ i s).2.2 hf).1.symm ▸ hd) (transition_path _ i s hst hf)

/-- An illegal word's transition leads to FINISH or ends it (R51). -/
theorem illegalStep_control {s : State} {e : DecodeError} (hb : s.status.busy = true) (hd : decode s.curCmd = .error e)
    (h : ControlInv s) : ControlInv (illegalStep s) := by
  rcases illegalStep_cases s with ⟨-, e⟩ | ⟨-, e⟩ | ⟨-, -, e⟩ <;> rw [e]
  · exact controlInv_illegal hb hd (.inr rfl)
  · exact controlInv_of_ended rfl rfl
  · exact h

/-- Settles O52: the CMD write enters the path, a transition moves along it or ends the command, and nothing else moves
`st`. -/
theorem stepKeepsControlOnPath : Obligations.StepKeepsControlOnPath := fun _ _ =>
  step_keeps_moves (fun _ _ ho h => by rw [ho]; exact h) (fun s w _ _ => startCommand_control w s)
    (fun _ _ => controlInv_of_ended rfl rfl) (fun _ _ hp hd _ => transition_control hp hd)
    (fun _ _ hb hd h => illegalStep_control hb hd h)

end Sys2Proof.Proofs.Invariants
end

section
/-! The basis is that of the installed secret key (10_state.md R29; 42_basis.md R90, R92; 43_keygen.md R96, R99). -/

namespace Sys2Proof.Proofs.BasisOfKey

open Sys2Proof Sys2Proof.Machine Sys2Proof.Claims Sys2Proof.Proofs.Transitions Sys2Proof.Proofs.Invariants

/-- The states in which KEYGEN holds a candidate (R96). -/
def candidateStates : List Fsm := [.kgBasis, .kgSample, .kgTest, .kgCommit]

/-- The states in which BASIS and SK_STORE may not belong together yet. -/
def rebuilding : List Fsm := .kyBasis :: candidateStates

/-- BASIS_VALID says that BASIS is that of the installed key, in cache mode (R29): the invariant's first clause. -/
def ValidBasis (s : State) : Prop :=
  s.status.basisValid = true → s.acfg.keep = true ∧ s.status.skValid = true ∧ s.basis = basisFor Config.collab s s.sk

/-- The basis of a key depends on the build and ACFG alone (R87). -/
theorem basisFor_congr {s t : State} (hb : t.build = s.build) (ha : t.acfg = s.acfg) (C : Collab) (k : SecretKey) :
    basisFor C t k = basisFor C s k := by simp only [basisFor, ps_congr hb ha, hb, ha]

theorem idleState_not_rebuilding (f : Status) : idleState f ∉ rebuilding := by
  unfold idleState
  split <;> decide

theorem firstState_not_rebuilding (i : Instr) : firstState i ∉ rebuilding := by cases i <;> decide

theorem mayFail_not_replacing {f : Fsm} (h : f ∈ mayFail) : f ∉ Fsm.kgGenerate :: rebuilding := by
  revert h
  cases f <;> decide

theorem computing_not_rebuilding {f : Fsm} (h : f ∈ computing) : f ∉ rebuilding :=
  mt (List.mem_cons_of_mem _) (mayFail_not_replacing (computing_mayFail h))

variable {s t : State}

theorem validBasis_congr (h : SameSecrets s t) (hs : ValidBasis s) : ValidBasis t := by
  unfold ValidBasis
  rwa [h.basisValid, h.acfg, h.skValid, h.basis, basisFor_congr h.build h.acfg, h.sk]

/-! ### The invariant in each kind of state -/

/-- Outside the rebuilding states the invariant's first and last clause are all. -/
theorem basisInv_of_not_rebuilding (hst : s.st ∉ rebuilding) (hvalid : ValidBasis s)
    (hcached : s.acfg.keep = true → s.status.skValid = true →
      s.status.basisValid = true ∨ s.status.busy = true ∧ s.st = .kgGenerate) : BasisInv s := by
  have out {l : List Fsm} (hl : l ⊆ rebuilding) : s.st ∉ l := fun h => hst (hl h)
  refine ⟨hvalid, fun _ _ h => absurd h (out (by decide)), fun _ _ h => absurd h (out (by decide)), fun _ h => ?_,
    fun hkeep hsk => (hcached hkeep hsk).imp_right fun ⟨hb, h⟩ => ⟨hb, by simp [h]⟩⟩
  exact absurd (List.mem_singleton.2 h) (out (by decide))

/-- While KEYGEN holds a candidate BASIS_VALID is 0, and from KG_SAMPLE on a cached BASIS is the candidate's. -/
theorem basisInv_of_candidate (hb : s.status.busy = true) (hst : s.st ∈ candidateStates)
    (hv : s.status.basisValid = false)
    (hcand : s.acfg.keep = true → s.st ≠ .kgBasis → s.basis = basisFor Config.collab s (candidateKey s)) :
    BasisInv s := by
  refine ⟨fun h => absurd (hv.symm.trans h) (by decide), fun _ _ _ => hv, fun _ hkeep hm => hcand hkeep ?_,
    fun _ h => ?_, fun _ _ => .inr ⟨hb, ?_⟩⟩
  · rintro h
    simp [h] at hm
  · simp [h, candidateStates] at hst
  · exact (show candidateStates ⊆ _ by decide) hst

theorem basisValid_false_of_candidate (hi : BasisInv s) (hb : s.status.busy = true) (hst : s.st ∈ candidateStates) :
    s.status.basisValid = false := by
  obtain ⟨hvalid, hkg, -, -, -⟩ := hi
  by_contra h
  rw [Bool.not_eq_false] at h
  exact absurd (h.symm.trans (hkg hb (hvalid h).1 hst)) (by decide)

/-- Outside the states that replace the key, an unchanged key keeps its basis. -/
theorem basisInv_of_sameSecrets (h : SameSecrets s t) (hs : s.st ∉ Fsm.kgGenerate :: rebuilding)
    (ht : t.st ∉ rebuilding) (hi : BasisInv s) : BasisInv t := by
  obtain ⟨hvalid, -, -, -, hcached⟩ := hi
  refine basisInv_of_not_rebuilding ht (validBasis_congr h hvalid) fun hkeep hsk => .inl ?_
  rw [h.basisValid]
  rw [h.acfg] at hkeep
  rw [h.skValid] at hsk
  refine (hcached hkeep hsk).resolve_right fun hr => hs ?_
  exact (show [Fsm.kgGenerate, .kgBasis, .kgSample, .kgTest, .kgCommit, .kyBasis] ⊆ _ by decide) hr.2

/-- A key with its basis meets the invariant: BASIS_VALID is KEEP, and in cache mode the basis is that of the key. -/
theorem basisInv_installed (hst : s.st ∉ rebuilding) (hv : s.status.basisValid = s.acfg.keep)
    (hk : s.acfg.keep = true → s.status.skValid = true ∧ s.basis = basisFor Config.collab s s.sk) : BasisInv s := by
  refine basisInv_of_not_rebuilding hst (fun h => ?_) fun hkeep _ => .inl (hv.trans hkeep)
  have hkeep := hv.symm.trans h
  exact ⟨hkeep, hk hkeep⟩

/-- Without a valid key there is nothing to say. -/
theorem basisInv_unkeyed (hst : s.st ∉ rebuilding) (hv : s.status.basisValid = false) (hk : s.status.skValid = false) :
    BasisInv s :=
  basisInv_of_not_rebuilding hst (fun h => absurd (hv.symm.trans h) (by decide))
    fun _ h => absurd (hk.symm.trans h) (by decide)

/-! ### One transition -/

/-- A basis that is the candidate's stays so while the candidate, the configuration and BASIS stay. -/
theorem candidateBasis_congr {C : Collab} (hb : t.build = s.build) (ha : t.acfg = s.acfg) (hbasis : t.basis = s.basis)
    (hc : candidateKey t = candidateKey s) (h : s.basis = basisFor C s (candidateKey s)) :
    t.basis = basisFor C t (candidateKey t) := by rw [hbasis, hc, basisFor_congr hb ha, h]

theorem basisInv_draws {c : Candidate} {r : List GenDraw} (hb : s.status.busy = true) (hi : BasisInv s) :
    BasisInv (putCandidate c (countCandidate r s)) := by
  obtain ⟨hvalid, -, -, -, -⟩ := hi
  refine basisInv_of_candidate hb (show Fsm.kgBasis ∈ candidateStates by decide) ?_ fun _ h => absurd rfl h
  show (if s.acfg.keep then false else s.status.basisValid) = false
  split
  · rfl
  · by_contra h
    exact ‹¬s.acfg.keep = true› (hvalid (by simpa using h)).1

/-- The candidate's basis goes to BASIS in cache mode, and is the candidate's still with the target in SCRATCH (R99). -/
theorem basisInv_buildsCandidate (hb : s.status.busy = true) (hv : s.status.basisValid = false) :
    BasisInv (kgBasisStep Config.collab s) := by
  have hstatus := kgBasisStep_status Config.collab s
  refine basisInv_of_candidate (by rw [hstatus, hb]) (show Fsm.kgSample ∈ candidateStates by decide)
    (by rw [hstatus, hv]) fun hkeep _ => ?_
  rw [(candidate_kgBasisStep ..).1, basisFor_congr (kgBasisStep_build ..) (kgBasisStep_acfg ..)]
  exact (holdBasis_basis _ s).trans (if_pos (kgBasisStep_acfg Config.collab s ▸ hkeep))

theorem basisInv_sampled {v : List Int} {r : List SampleDraw} (hb : s.status.busy = true)
    (hv : s.status.basisValid = false)
    (hcand : s.acfg.keep = true → s.basis = basisFor Config.collab s (candidateKey s)) : BasisInv (sampled v r s) := by
  refine basisInv_of_candidate (by rw [sampled_status, hb]) (by rw [sampled_st]; decide) (by rw [sampled_status, hv])
    fun hkeep _ => ?_
  exact candidateBasis_congr (sampled_build ..) (sampled_acfg ..) (sampled_basis ..) (candidate_sampled ..).1
    (hcand (sampled_acfg s v r ▸ hkeep))

theorem basisInv_effect {i : Instr} (hb : s.status.busy = true) (h : Effect Config.collab s i t) (hi : BasisInv s) :
    BasisInv t := by
  have noBasis := basisValid_false_of_candidate hi hb
  have same (h : SameStores s t) := fun hs ht => basisInv_of_sameSecrets (t := t) h.toSameSecrets hs ht hi
  have work {f : Fsm} (h : f ∈ computing) := mayFail_not_replacing (computing_mayFail h)
  have finish : Fsm.finish ∉ rebuilding := by decide
  have ⟨hvalid, _, hcand, hky, _⟩ := hi
  cases h with
  | waits => exact hi
  | enters i hst => exact same (.entered s _) (by rw [hst]; decide) (firstState_not_rebuilding i)
  | works _ hst hw => exact same (.of_works hw) (work hst) (computing_not_rebuilding (hw.st_mem hst))
  | finishes _ hst hw => exact same (SameStores.of_works hw).finishOk (work hst) finish
  | accepts _ hst hw => exact same (SameStores.of_works hw).accept (work hst) finish
  | rejects _ hst hw => exact same (SameStores.of_works hw).reject (work hst) finish
  | fails _ hst hw => exact same ((SameStores.of_works hw).raiseError _) (mayFail_not_replacing hst) finish
  | ends i hst => exact same (.ended s _) (by rw [hst]; decide) (idleState_not_rebuilding _)
  | latches | tearsDown => exact basisInv_unkeyed finish rfl rfl
  | retries r hst =>
    exact basisInv_of_not_rebuilding (by rw [hst]; decide) hvalid fun _ _ => .inr ⟨hb, hst⟩
  | draws c r hst => exact basisInv_draws hb hi
  | buildsCandidate hst => exact basisInv_buildsCandidate hb (noBasis (by rw [hst]; decide))
  | samples v r hst =>
    exact basisInv_sampled hb (noBasis (by rw [hst]; decide)) fun hkeep => hcand hb hkeep (by simp [hst])
  | restarts hst hw =>
    have hm : s.st ∈ candidateStates := (show [Fsm.kgSample, .kgTest] ⊆ _ by decide) hst
    have hv : (kgRestart _).status.basisValid = false :=
      (SameStores.of_works hw).kgRestart.basisValid.trans (noBasis hm)
    refine basisInv_of_not_rebuilding (show Fsm.kgGenerate ∉ rebuilding by decide)
      (fun h => absurd (hv.symm.trans h) (by decide)) fun _ _ => .inr ⟨?_, rfl⟩
    rw [kgRestart_status, hw.status, hb]
  | passes hst =>
    exact basisInv_of_candidate hb (show Fsm.kgCommit ∈ candidateStates by decide) (noBasis (by rw [hst]; decide))
      fun hkeep _ => hcand hb hkeep (by simp [hst])
  | commits hst =>
    exact basisInv_installed finish rfl fun hkeep => ⟨rfl, hcand hb hkeep (by simp [hst])⟩
  | loadsCached hst =>
    exact ⟨fun h => absurd h Bool.false_ne_true, fun _ _ _ => rfl, fun _ _ h => absurd h (by simp), fun _ _ => rfl,
      fun _ _ => .inr ⟨hb, by simp⟩⟩
  | loadsTransient _ hkeep =>
    exact basisInv_installed finish rfl fun h => absurd (hkeep.symm.trans h) (by decide)
  | installs hst =>
    exact basisInv_installed finish rfl fun hkeep => ⟨hky hb hst, if_pos hkeep⟩
  | loadsPk hst =>
    exact basisInv_of_sameSecrets (s := s) ⟨rfl, rfl, rfl, rfl, rfl, rfl⟩ (by rw [hst]; decide) finish hi

/-! ### Every step -/

/-- No command runs where a CMD write is taken, so the key has its basis already. -/
theorem basisInv_startCommand (w : Word) (hb : s.status.busy = false) (hi : BasisInv s) :
    BasisInv (startCommand w s) := by
  obtain ⟨hvalid, -, -, -, hcached⟩ := hi
  refine basisInv_of_not_rebuilding (show Fsm.dispatch ∉ rebuilding by decide) hvalid fun hkeep hsk => .inl ?_
  exact (hcached hkeep hsk).resolve_right fun hr => absurd (hb.symm.trans hr.1) (by decide)

theorem basisInv_step (h : BasisInv s) (ht : step s = .next t) : BasisInv t :=
  step_keeps_effect (fun _ _ ho h => by rw [ho]; exact h) (fun _ w hb h => basisInv_startCommand w hb h)
    (fun _ _ => basisInv_unkeyed (show Fsm.unconfigured ∉ rebuilding by decide) rfl rfl)
    (fun _ _ _ hb he h => basisInv_effect hb he h) h ht

/-- Settles O56: the invariant is kept by every step, and its clauses at a boundary and in KEYGEN are those stated. -/
theorem stepKeepsTheBasisOfTheKey : Obligations.StepKeepsTheBasisOfTheKey := by
  refine ⟨fun _ _ => basisInv_step, fun s ⟨hvalid, hkg, _, _, hcached⟩ => ⟨fun _ => hvalid, fun hb hkeep hsk => ?_,
    fun hb hkeep hst => hkg hb hkeep (by simpa using hst)⟩⟩
  exact (hcached hkeep hsk).resolve_right fun hr => absurd (hb.symm.trans hr.1) (by decide)

end Sys2Proof.Proofs.BasisOfKey
end

section
/-! The outcome bits (10_state.md R19), the scrubbing of SCRATCH and TBASIS (R30, R31), and the active configuration (R25)
through every step. -/

namespace Sys2Proof.Proofs.StepInvariants

open Sys2Proof Sys2Proof.Machine Sys2Proof.Claims Sys2Proof.Proofs.Transitions Sys2Proof.Proofs.Invariants

variable {s t : State}

theorem mayFail_not_finish {f : Fsm} (h : f ∈ mayFail) : f ≠ .finish := by
  rintro rfl
  exact absurd h (by decide)

/-! ### The outcome bits -/

/-- No outcome yet: the four fields as a CMD write leaves them (R18). -/
def NoOutcome (f : Status) : Prop := f.err = false ∧ f.accept = false ∧ f.reject = false ∧ f.errcode = .none

/-- A running command has no outcome before FINISH. -/
theorem noOutcome_of_running (ho : OutcomeInv s) (hb : s.status.busy = true) (hst : s.st ≠ .finish) :
    NoOutcome s.status := by
  obtain ⟨herr, hrej, -, hrun⟩ := ho
  obtain ⟨hacc, hcode⟩ := hrun hb hst
  refine ⟨?_, hacc, ?_, hcode⟩
  · by_contra h
    exact (herr.1 (by simpa using h)).1 hcode
  · by_contra h
    simp [hcode] at hrej
    exact h hrej

theorem outcomeInv_none (h : NoOutcome s.status) : OutcomeInv s := by
  obtain ⟨herr, hacc, hrej, hcode⟩ := h
  simp [OutcomeInv, herr, hacc, hrej, hcode]

theorem outcomeInv_ended (ho : OutcomeInv s) : OutcomeInv (endCommand s) := by
  obtain ⟨herr, hrej, hacc, -⟩ := ho
  exact ⟨herr, hrej, hacc, fun h => absurd h Bool.false_ne_true⟩

theorem outcomeInv_failed {e : ErrCode} (he : Hard e) (h : NoOutcome s.status) : OutcomeInv (raiseError e s) := by
  obtain ⟨-, hacc, hrej, -⟩ := h
  simp [OutcomeInv, hacc, hrej, he.1, he.2]

theorem outcomeInv_accepted (h : NoOutcome s.status) : OutcomeInv (accept s) := by
  obtain ⟨herr, -, hrej, hcode⟩ := h
  simp [OutcomeInv, herr, hrej, hcode]

theorem outcomeInv_rejected (h : NoOutcome s.status) : OutcomeInv (reject s) := by
  obtain ⟨herr, hacc, -, -⟩ := h
  simp [OutcomeInv, herr, hacc]

/-- The outcome is decided in the transition to FINISH, from no outcome; every other one but the last leaves none. -/
theorem outcomeInv_effect {i : Instr} (hb : s.status.busy = true) (h : Effect Config.collab s i t) (ho : OutcomeInv s) :
    OutcomeInv t := by
  have none {f : Fsm} (h : s.st = f) (hf : f ≠ .finish) : NoOutcome s.status := noOutcome_of_running ho hb (h ▸ hf)
  have work {u : State} (hst : s.st ∈ computing) (hw : Works s u) : NoOutcome u.status :=
    hw.status ▸ noOutcome_of_running ho hb (mayFail_not_finish (computing_mayFail hst))
  cases h with
  | waits => exact ho
  | ends => exact outcomeInv_ended ho
  | fails _ hst hw he =>
    exact outcomeInv_failed he (hw.status ▸ noOutcome_of_running ho hb (mayFail_not_finish hst))
  | accepts _ hst hw => exact outcomeInv_accepted (work hst hw)
  | rejects _ hst hw => exact outcomeInv_rejected (work hst hw)
  | works _ hst hw => exact outcomeInv_none (work hst hw)
  | finishes _ hst hw =>
    have hnone := work hst hw
    exact outcomeInv_none hnone
  | restarts hst hw =>
    refine outcomeInv_none (s := kgRestart _) (hw.status ▸ noOutcome_of_running ho hb fun h => ?_)
    simp [h] at hst
  | samples v r hst => exact outcomeInv_none (sampled_status s v r ▸ none hst (by decide))
  | buildsCandidate hst => exact outcomeInv_none (kgBasisStep_status Config.collab s ▸ none hst (by decide))
  | enters _ hst | latches hst | tearsDown hst | retries _ hst | draws _ _ hst | passes hst | commits hst
  | loadsCached hst | loadsTransient hst | installs hst | loadsPk hst =>
    exact outcomeInv_none (none hst (by decide))

/-- Settles O55: the invariant through every step; two of the three bits together contradict ERRCODE. -/
theorem stepKeepsOutcomesConsistent : Obligations.StepKeepsOutcomesConsistent := by
  refine ⟨fun _ _ => step_keeps_effect (fun _ _ ho h => by rw [ho]; exact h)
    (fun _ _ _ _ => outcomeInv_none ⟨rfl, rfl, rfl, rfl⟩) (fun _ _ => outcomeInv_none ⟨rfl, rfl, rfl, rfl⟩)
    (fun _ _ _ hb he h => outcomeInv_effect hb he h), fun s ⟨herr, hrej, hacc, _⟩ => ⟨?_, ?_, ?_⟩⟩
  · exact fun ⟨he, ha⟩ => (herr.1 he).1 (hacc ha)
  · exact fun ⟨he, hr⟩ => (herr.1 he).2 (hrej.1 hr)
  · exact fun ⟨ha, hr⟩ => absurd ((hacc ha).symm.trans (hrej.1 hr)) (by decide)

/-! ### SCRATCH and TBASIS -/

/-- SCRATCH is 7·N_MAX words of SCRATCH_W bits (R31). -/
def WordsOk (b : Build) (x : Scratch) : Prop := x.length = 7 * b.nMax ∧ ∀ y ∈ x, y < 2 ^ b.scratchW

theorem wordsOk_zero (b : Build) : WordsOk b (Scratch.zero b) :=
  ⟨List.length_replicate, fun _ hy => List.eq_of_mem_replicate hy ▸ Nat.two_pow_pos _⟩

theorem WordsOk.put {b : Build} {x : Scratch} (h : WordsOk b x) (slot : Slot) (v : List Int) :
    WordsOk b (putWords b slot v x) := ⟨putWords_length .., putWords_lt slot v h.2⟩

theorem WordsOk.putCandidate (h : WordsOk s.build s.scratch) (c : Candidate) :
    WordsOk s.build (putCandidate c s).scratch := ((((h.put .f _).put .g _).put .bigF _).put .bigG _).put .h _

theorem WordsOk.works (hw : Works s t) (h : WordsOk s.build s.scratch) : WordsOk s.build t.scratch := by
  induction hw with
  | start => exact h
  | put hw slot v ih => exact hw.build ▸ WordsOk.put (hw.build.symm ▸ ih) slot v
  | draw _ _ ih | hold _ _ ih | enter _ _ _ ih => exact ih
  | store _ win bytes ih => rwa [windowStore_scratch]

/-- While a command runs only the size of SCRATCH and its words count. -/
theorem scrubInv_running (hb : s.status.busy = true) (h : WordsOk s.build s.scratch) : ScrubInv s :=
  ⟨h.1, h.2, fun hi => absurd (hb.symm.trans hi) (by decide)⟩

theorem scrubInv_zero (hx : s.scratch = Scratch.zero s.build) (ht : s.tbasis = Basis.zero) : ScrubInv s := by
  have h := wordsOk_zero s.build
  rw [← hx] at h
  exact ⟨h.1, h.2, fun _ => ⟨hx, ht⟩⟩

/-- A transition puts words of the right width in, zeroes SCRATCH, or ends the command with both stores zeroed (R124). -/
theorem scrubInv_effect {i : Instr} (hb : s.status.busy = true) (h : Effect Config.collab s i t) (hs : ScrubInv s) :
    ScrubInv t := by
  have words : WordsOk s.build s.scratch := by
    obtain ⟨hlen, hlt, -⟩ := hs
    exact ⟨hlen, hlt⟩
  have work {u : State} (hw : Works s u) : u.status.busy = true ∧ WordsOk u.build u.scratch :=
    ⟨by rw [hw.status, hb], hw.build ▸ words.works hw⟩
  cases h with
  | waits => exact hs
  | ends => exact scrubInv_zero rfl rfl
  | works _ _ hw | finishes _ _ hw | fails _ _ hw | accepts _ _ hw | rejects _ _ hw =>
    exact scrubInv_running (work hw).1 (work hw).2
  | restarts _ hw => exact scrubInv_running (work hw).1 (wordsOk_zero _)
  | tearsDown | commits => exact scrubInv_running hb (wordsOk_zero _)
  | draws c r => exact scrubInv_running hb (words.putCandidate (s := countCandidate r s) _)
  | buildsCandidate =>
    refine scrubInv_running (by rw [kgBasisStep_status, hb]) ?_
    rw [kgBasisStep_build, kgBasisStep_scratch]
    exact words.put _ _
  | samples v r =>
    refine scrubInv_running (by rw [sampled_status, hb]) ?_
    rw [sampled_build, sampled_scratch]
    exact words.put _ _
  | enters | latches | retries | passes | loadsCached | loadsTransient | installs | loadsPk =>
    exact scrubInv_running hb words

/-- Settles O54: the invariant through every step, the zero words at a boundary, and each place read back. -/
theorem stepKeepsScratchScrubbed : Obligations.StepKeepsScratchScrubbed := by
  refine ⟨fun _ _ => step_keeps_effect (fun _ _ ho h => by rw [ho]; exact h) (fun s w _ h => ?_)
    (fun _ _ => scrubInv_zero rfl rfl) (fun _ _ _ hb he h => scrubInv_effect hb he h), fun s h hidle k => ?_,
    fun s slot slot' v hlen hw hv => ⟨?_, fun hne len => scratchVec_put_ne hne v s len⟩⟩
  · obtain ⟨hlen, hlt, -⟩ := h
    exact scrubInv_running (s := startCommand w s) rfl ⟨hlen, hlt⟩
  · obtain ⟨-, -, hzero⟩ := h
    rw [(hzero hidle).1]
    rw [Scratch.zero, List.getD_eq_getElem?_getD]
    exact List.getElem?_getD_replicate_default_eq ..
  · rw [scratchVec_put]
    exact heldVec_eq rfl hlen hw hv

/-! ### The active configuration -/

/-- The states in which an unconfigured block may be (R122). -/
def unconfiguredStates : List Fsm := [.dispatch, .cfValidate, .cfTeardown, .finish]

/-- The invariant of a configured block. -/
theorem configInv_configured (hc : s.status.configured = true)
    (h : storageFits s.build s.acfg.variant s.ps = true) : ConfigInv s :=
  ⟨fun _ => h, fun h => absurd (hc.symm.trans h) (by decide), fun _ h => absurd (hc.symm.trans h) (by decide)⟩

/-- The invariant of an unconfigured block. -/
theorem configInv_unconfigured (hc : s.status.configured = false)
    (h : s.acfg = Acfg.zero ∧ s.status.skValid = false ∧ s.status.pkValid = false ∧ s.status.basisValid = false)
    (hst : s.status.busy = true → s.st ∈ unconfiguredStates) : ConfigInv s :=
  ⟨fun h => absurd (hc.symm.trans h) (by decide), fun _ => h, fun hb _ => hst hb⟩

/-- A configured block stays so while its configuration stays. -/
theorem configInv_of_configured (hi : ConfigInv s) (hc : s.status.configured = true) (hb : t.build = s.build)
    (ha : t.acfg = s.acfg) (ht : t.status.configured = s.status.configured) : ConfigInv t := by
  refine configInv_configured (ht.trans hc) ?_
  obtain ⟨hstorage, -, -⟩ := hi
  rw [ps_congr hb ha, hb, ha]
  exact hstorage hc

/-- With the same stores only the place of an unconfigured block is left to check. -/
theorem configInv_of_sameStores (hi : ConfigInv s) (h : SameStores s t)
    (hst : t.status.busy = true → s.status.configured = false → t.st ∈ unconfiguredStates) : ConfigInv t := by
  cases hc : s.status.configured with
  | true => exact configInv_of_configured hi hc h.build h.acfg h.configured
  | false =>
    obtain ⟨-, hzero, -⟩ := hi
    refine configInv_unconfigured (h.configured.trans hc) ?_ fun hb => hst hb hc
    rw [h.acfg, h.skValid, h.pkValid, h.basisValid]
    exact hzero hc

/-- Past DISPATCH an unconfigured block runs CONFIGURE or DESTROY. -/
theorem configured_of_running (hi : ConfigInv s) (hb : s.status.busy = true) (hst : s.st ∉ unconfiguredStates) :
    s.status.configured = true := by
  obtain ⟨-, -, hplace⟩ := hi
  by_contra h
  exact hst (hplace hb (by simpa using h))

theorem computing_configured {f : Fsm} (h : f ∈ computing) : f ∉ unconfiguredStates := by
  revert h
  cases f <;> decide

/-- An unconfigured block passes the checks for CONFIGURE and DESTROY only (R122). -/
theorem firstState_unconfigured {i : Instr} (hok : dispatchError i s = none) (hc : s.status.configured = false) :
    firstState i ∈ unconfiguredStates := by
  by_cases h1 : i = .configure
  · subst h1; decide
  by_cases h2 : i = .destroy
  · subst h2; decide
  exact absurd (hc.symm.trans (dispatch_configured hok h1 h2)) (by decide)

/-- What CfgValidate answers has its storage in the build (R84). -/
theorem cfgValidate_storage {b : Build} {v w : Word} {a : Acfg} (h : cfgValidate b v w = .ok a) :
    storageFits b a.variant (b.pset a.variant a.pset) = true := by
  unfold cfgValidate at h
  repeat' split at h
  all_goals cases h
  simpa using ‹¬storageFits b _ _ = false›

theorem configInv_effect {i : Instr} (hb : s.status.busy = true) (h : Effect Config.collab s i t) (hi : ConfigInv s) :
    ConfigInv t := by
  have stays {u : State} (hc : s.status.configured = true) (h : SameStores s u) : ConfigInv u :=
    configInv_of_configured hi hc h.build h.acfg h.configured
  have configured {f : Fsm} (h : s.st = f) (hf : f ∉ unconfiguredStates := by decide) : s.status.configured = true :=
    configured_of_running hi hb (h ▸ hf)
  have work (h : s.st ∈ computing) : s.status.configured = true :=
    configured_of_running hi hb (computing_configured h)
  have finish : Fsm.finish ∈ unconfiguredStates := by decide
  cases h with
  | waits => exact hi
  | ends => exact configInv_of_sameStores hi (.ended s _) fun h => absurd h Bool.false_ne_true
  | enters i _ hok =>
    exact configInv_of_sameStores hi (.entered s _) fun _ hc => firstState_unconfigured hok hc
  | latches _ ha => exact configInv_configured rfl (cfgValidate_storage ha)
  | tearsDown => exact configInv_unconfigured rfl ⟨rfl, rfl, rfl, rfl⟩ fun _ => finish
  | fails _ _ hw => exact configInv_of_sameStores hi ((SameStores.of_works hw).raiseError _) fun _ _ => finish
  | works _ hst hw => exact stays (work hst) (.of_works hw)
  | finishes _ hst hw => exact stays (work hst) (SameStores.of_works hw).finishOk
  | accepts _ hst hw => exact stays (work hst) (SameStores.of_works hw).accept
  | rejects _ hst hw => exact stays (work hst) (SameStores.of_works hw).reject
  | restarts hst hw =>
    refine stays (configured_of_running hi hb fun h => ?_) (SameStores.of_works hw).kgRestart
    revert hst h
    cases s.st <;> decide
  | buildsCandidate hst =>
    exact configInv_of_configured hi (configured hst) (kgBasisStep_build ..) (kgBasisStep_acfg ..)
      (congrArg Status.configured (kgBasisStep_status ..))
  | samples v r hst =>
    exact configInv_of_configured hi (configured hst) (sampled_build ..) (sampled_acfg ..)
      (congrArg Status.configured (sampled_status ..))
  | retries _ hst | draws _ _ hst | passes hst | commits hst | loadsCached hst | loadsTransient hst | installs hst
  | loadsPk hst => exact configInv_of_configured hi (configured hst) rfl rfl rfl

/-- No effect changes the build parameters (R8). -/
theorem build_effect {i : Instr} (h : Effect Config.collab s i t) : t.build = s.build := by
  cases h with
  | works _ _ hw | finishes _ _ hw | fails _ _ hw | accepts _ _ hw | rejects _ _ hw | restarts _ hw => exact hw.build
  | buildsCandidate => exact kgBasisStep_build ..
  | samples => exact sampled_build ..
  | _ => rfl

/-- Settles O58: both by one transition at a time; a CMD write enters DISPATCH and the reset leaves ACFG zero. -/
theorem stepKeepsTheConfiguration : Obligations.StepKeepsTheConfiguration := by
  refine fun s _ hi ht => ⟨?_, ?_⟩
  · exact step_keeps_effect (P := ConfigInv) (fun _ _ ho h => by rw [ho]; exact h)
      (fun _ _ _ ⟨hstorage, hzero, _⟩ => ⟨hstorage, hzero, fun _ _ => show Fsm.dispatch ∈ unconfiguredStates by decide⟩)
      (fun _ _ => configInv_unconfigured rfl ⟨rfl, rfl, rfl, rfl⟩ fun h => absurd h Bool.false_ne_true)
      (fun _ _ _ hb he h => configInv_effect hb he h) hi ht
  · exact step_keeps_effect (P := fun u => u.build = s.build) (fun _ _ ho h => by rw [ho]; exact h)
      (fun _ _ _ h => h) (fun _ h => h) (fun _ _ _ _ he h => (build_effect he).trans h) rfl ht

end Sys2Proof.Proofs.StepInvariants
end

section
/-! The key stores hold values in their ranges (10_state.md R26, R27): what the decoders and a generator's contract give, that
SCRATCH gives back no other values, and the invariant through every step. -/

namespace Sys2Proof.Proofs.KeyRanges

open Sys2Proof Sys2Proof.Machine Sys2Proof.Claims Sys2Proof.Proofs.Transitions Sys2Proof.Proofs.Invariants

/-! ### Values in a range -/

/-- A signed value of width `w` (R12). -/
def FitsWidth (w : Nat) (x : Int) : Prop := -(2 ^ (w - 1) : Int) ≤ x ∧ x < 2 ^ (w - 1)

theorem fitsWidth_zero (w : Nat) : FitsWidth w 0 := ⟨by simp, by positivity⟩

theorem FitsWidth.mono {w w' : Nat} {x : Int} (h : FitsWidth w x) (hw : w ≤ w') : FitsWidth w' x := by
  have hp : (2 : Int) ^ (w - 1) ≤ 2 ^ (w' - 1) := pow_le_pow_right₀ (by decide) (by omega)
  exact ⟨(neg_le_neg hp).trans h.1, h.2.trans_le hp⟩

/-- The value of a pattern fits the pattern's width (R71). -/
theorem fitsWidth_signExtend {w u : Nat} (hw : 1 ≤ w) (hu : u < 2 ^ w) : FitsWidth w (signExtend w u) := by
  obtain ⟨k, rfl⟩ : ∃ k, w = k + 1 := ⟨w - 1, by omega⟩
  have hp : (2 : Int) ^ (k + 1) = 2 * 2 ^ k := by ring
  have hc : ((2 ^ k : Nat) : Int) = 2 ^ k := by norm_cast
  have hn : (2 : Nat) ^ (k + 1) = 2 * 2 ^ k := by ring
  simp only [FitsWidth, Nat.add_sub_cancel]
  unfold signExtend
  rw [hp, hn] at *
  split <;> omega

theorem forall_vec {P : Int → Prop} {n : Nat} {f : Nat → Int} (h : ∀ i < n, P (f i)) : ∀ x ∈ vec n f, P x := by
  intro x hx
  obtain ⟨i, hi, rfl⟩ := List.mem_map.1 hx
  exact h i (List.mem_range.1 hi)

theorem vec_length (n : Nat) (f : Nat → Int) : (vec n f).length = n := by simp [vec]

theorem signedVec_vec {n w : Nat} {f : Nat → Int} (h : ∀ i < n, FitsWidth w (f i)) : SignedVec n w (vec n f) :=
  ⟨vec_length n f, forall_vec (P := FitsWidth w) h⟩

/-- What a slot gives back is a value that was put in, or 0. -/
theorem forall_heldVec {b : Build} {P : Int → Prop} (hw : 1 ≤ b.scratchW) {v : List Int}
    (hfit : ∀ x ∈ v, FitsWidth b.scratchW x) (h0 : P 0) (h : ∀ x ∈ v, P x) (len : Nat) :
    ∀ x ∈ heldVec b v len, P x := by
  refine forall_vec fun i _ => ?_
  split
  · by_cases hi : i < v.length
    · have hm : coef v i ∈ v := by
        rw [show coef v i = v[i] from List.getD_eq_getElem _ _ hi]
        exact List.getElem_mem hi
      rw [signExtend_patternOf hw (hfit _ hm).1 (hfit _ hm).2]
      exact h _ hm
    · have hz : coef v i = 0 := List.getD_eq_default _ _ (by omega)
      rw [hz, signExtend_patternOf hw (fitsWidth_zero _).1 (fitsWidth_zero _).2]
      exact h0
  · exact h0

theorem signedVec_heldVec {b : Build} {n w : Nat} (hw : 1 ≤ w) (hwb : w ≤ b.scratchW) {v : List Int}
    (h : SignedVec n w v) : SignedVec n w (heldVec b v n) :=
  ⟨heldVec_length .., forall_heldVec (P := FitsWidth w) (hw.trans hwb) (fun x hx => FitsWidth.mono (h.2 x hx) hwb)
    (fitsWidth_zero w) h.2 n⟩

/-! ### What a build's constraints say of a set -/

/-- The bounds of R7 and R31 on a set whose values are kept in words of `w` bits. -/
structure SetBounds (ps : ParamSet) (w : Nat) : Prop where
  q_pos : 1 ≤ ps.q
  q_lt : ps.q < 2 ^ ps.qBits
  fg_pos : 1 ≤ ps.fgBits
  fgu_pos : 1 ≤ ps.fguBits
  q_fits : ps.qBits + 1 ≤ w
  fg_fits : ps.fgBits ≤ w
  fgu_fits : ps.fguBits ≤ w

theorem setBounds_of_wf {ps : ParamSet} {v : Variant} {w : Nat} (h : ps.wf v = true) (hf : ps.fitsWord w = true) :
    SetBounds ps w := by
  simp only [ParamSet.wf, ParamSet.fitsWord, Bool.and_eq_true, decide_eq_true_eq] at h hf
  constructor <;> omega

/-- Each set of a build that meets its constraints has them (R2, R8). -/
theorem setBounds_pset {b : Build} (h : b.wf = true) (v : Variant) (i : Fin 2) :
    SetBounds (b.pset v i) b.scratchW := by
  simp only [Build.wf, Bool.and_eq_true] at h
  obtain ⟨⟨⟨⟨⟨⟨⟨⟨⟨⟨⟨⟨p0, p1⟩, r0⟩, r1⟩, -⟩, -⟩, -⟩, -⟩, -⟩, f0⟩, f1⟩, f2⟩, f3⟩ := h
  cases v <;> unfold Build.pset <;> dsimp only <;> split
  · exact setBounds_of_wf p0 f0
  · exact setBounds_of_wf p1 f1
  · exact setBounds_of_wf r0 f2
  · exact setBounds_of_wf r1 f3

variable {s t : State}

theorem setBounds_active (h : s.build.wf = true) : SetBounds s.ps s.build.scratchW := setBounds_pset h _ _

/-! ### What the decoders give -/

/-- Values of an element that has been decoded: signed ones of its width, or natural numbers (R71, R73). -/
theorem decodeElem_range {C : Collab} {o : BitOrder} {n : Nat} {b : List Bool} {e : ElemDesc} {p p' : Nat}
    {v : List Int} (h : decodeElem C o n b e p = some (v, p')) (hw : 1 ≤ e.w) :
    v.length = n ∧ ∀ x ∈ v, if e.signed then FitsWidth e.w x else 0 ≤ x := by
  have value {u : Nat} (hu : u < 2 ^ e.w) : if e.signed then FitsWidth e.w (valueOf e.signed e.w u)
      else 0 ≤ valueOf e.signed e.w u := by
    cases he : e.signed
    · exact Int.natCast_nonneg u
    · exact fitsWidth_signExtend hw hu
  unfold decodeElem at h
  repeat' split at h
  · cases h
  · cases h
    exact ⟨vec_length .., forall_vec fun _ _ => value (readField_lt ..)⟩
  · cases h
  · cases h
    exact ⟨vec_length .., forall_vec fun _ _ => value (patternOf_lt ..)⟩

/-- The elements of a schema are decoded one by one (R73). -/
theorem decodeElems_forall₂ {C : Collab} {o : BitOrder} {n : Nat} {b : List Bool} {schema : List ElemDesc} {p p' : Nat}
    {vs : List (List Int)} (h : decodeElems C o n b schema p = some (vs, p')) :
    List.Forall₂ (fun e v => ∃ p p', decodeElem C o n b e p = some (v, p')) schema vs := by
  induction schema generalizing p p' vs with
  | nil => cases h; exact .nil
  | cons e r ih =>
    unfold decodeElems at h
    repeat' split at h
    · cases h
    · cases h
    · cases h
      exact .cons ⟨_, _, ‹_›⟩ (ih ‹_›)

theorem unpackWindow_forall₂ {C : Collab} {win : Window} {schema : List ElemDesc} {vs : List (List Int)}
    (h : unpackWindow C s win schema = some vs) (hw : ∀ e ∈ schema, 1 ≤ e.w) :
    List.Forall₂ (fun e v => v.length = s.ps.n ∧ ∀ x ∈ v, if e.signed then FitsWidth e.w x else 0 ≤ x) schema vs := by
  unfold unpackWindow unpack at h
  repeat' split at h
  · cases h
  · cases h
    have hall := decodeElems_forall₂ ‹_›
    rw [List.forall₂_iff_get] at hall ⊢
    refine ⟨hall.1, fun i h1 h2 => ?_⟩
    obtain ⟨p, p', he⟩ := hall.2 i h1 h2
    exact decodeElem_range he (hw _ (List.get_mem ..))
  · cases h

/-- A secret key that LOAD_SK takes is in its ranges (R26, R105). -/
theorem loadedKey_inRange {C : Collab} {k : SecretKey} (hw : s.build.wf = true)
    (h : unpackWindow C s .sk (skSchema s.ps s.acfg) = some [k.f, k.g, k.bigF, k.bigG]) : KeyInRange s.ps k := by
  have hb := setBounds_active hw
  have hall := unpackWindow_forall₂ h (by simp [skSchema, hb.fg_pos, hb.fgu_pos])
  simpa [skSchema, KeyInRange, SignedVec, FitsWidth] using hall

/-- A public key that LOAD_PK takes is in its range (R27, R106). -/
theorem loadedPk_inRange {C : Collab} {h : List Int} (hw : s.build.wf = true) (hd : decodedPk C s = some h) :
    PublicInRange s.ps h := by
  have hb := setBounds_active hw
  unfold decodedPk at hd
  repeat' split at hd
  all_goals cases hd
  rename_i hu hq
  have hpos : 1 ≤ (pkElem s.ps).w := by
    by_contra h0
    have hq0 := hb.q_lt
    have hq1 := hb.q_pos
    rw [show s.ps.qBits = 0 by simpa [pkElem] using h0] at hq0
    omega
  have hall := unpackWindow_forall₂ hu (by simpa using hpos)
  simp [pkElem] at hall
  simp only [pkInRange, List.all_eq_true, decide_eq_true_eq] at hq
  exact ⟨hall.1, fun x hx => ⟨hall.2 x hx, hq x hx⟩⟩

/-! ### A generator's candidate -/

theorem contractCandidate_key (hb : SetBounds s.ps s.build.scratchW) (c : Candidate) :
    KeyInRange s.ps (contractCandidate s.ps c).key := by
  have field {w : Nat} (hw : 1 ≤ w) (v : List Int) :
      SignedVec s.ps.n w (vec s.ps.n fun i => signExtend w (patternOf w (coef v i))) :=
    signedVec_vec fun _ _ => fitsWidth_signExtend hw (patternOf_lt ..)
  exact ⟨field hb.fg_pos _, field hb.fg_pos _, field hb.fgu_pos _, field hb.fgu_pos _⟩

theorem contractCandidate_h {ps : ParamSet} (hq : 1 ≤ ps.q) (c : Candidate) :
    PublicInRange ps (contractCandidate ps c).h :=
  ⟨vec_length .., forall_vec fun _ _ => ⟨Int.emod_nonneg _ (by omega), Int.emod_lt_of_pos _ (by omega)⟩⟩

/-- A public coefficient fits a word of SCRATCH. -/
theorem fitsWidth_of_public {ps : ParamSet} {w : Nat} (hb : SetBounds ps w) {x : Int} (h : 0 ≤ x ∧ x < ps.q) :
    FitsWidth w x := by
  refine FitsWidth.mono (w := ps.qBits + 1) ⟨?_, ?_⟩ hb.q_fits
  · exact (neg_nonpos.2 (by positivity)).trans h.1
  · have hq : (ps.q : Int) < 2 ^ ps.qBits := by exact_mod_cast hb.q_lt
    simpa using h.2.trans hq

/-- A candidate in its ranges is read back from SCRATCH in its ranges, whether or not its vectors fit their places. -/
theorem putCandidate_inRange (hb : SetBounds s.ps s.build.scratchW) {c : Candidate} (hk : KeyInRange s.ps c.key)
    (hh : PublicInRange s.ps c.h) :
    KeyInRange s.ps (candidateKey (putCandidate c s)) ∧ PublicInRange s.ps (candidateH (putCandidate c s)) := by
  obtain ⟨ef, eg, eF, eG, eh⟩ := scratchVec_putCandidate c s s.ps.n
  obtain ⟨hf, hg, hF, hG⟩ := hk
  simp only [candidateKey, candidateH, putCandidate_ps, ef, eg, eF, eG, eh]
  refine ⟨⟨signedVec_heldVec hb.fg_pos hb.fg_fits hf, signedVec_heldVec hb.fg_pos hb.fg_fits hg,
    signedVec_heldVec hb.fgu_pos hb.fgu_fits hF, signedVec_heldVec hb.fgu_pos hb.fgu_fits hG⟩, heldVec_length .., ?_⟩
  exact forall_heldVec (P := fun x => 0 ≤ x ∧ x < s.ps.q) (hb.fg_pos.trans hb.fg_fits)
    (fun x hx => fitsWidth_of_public hb (hh.2 x hx)) ⟨le_rfl, by exact_mod_cast hb.q_pos⟩ hh.2 _

/-! ### The invariant -/

/-- `t` has the build, the configuration and the keys of `s`. -/
structure SameKeys (s t : State) : Prop where
  build : t.build = s.build
  ps : t.ps = s.ps
  sk : t.sk = s.sk
  pk : t.pk = s.pk
  skValid : t.status.skValid = s.status.skValid
  pkValid : t.status.pkValid = s.status.pkValid

theorem SameKeys.of_stores (h : SameStores s t) : SameKeys s t := ⟨h.build, h.ps, h.sk, h.pk, h.skValid, h.pkValid⟩

theorem SameKeys.kgBasisStep (C : Collab) (s : State) : SameKeys s (kgBasisStep C s) :=
  ⟨kgBasisStep_build C s, ps_congr (kgBasisStep_build C s) (kgBasisStep_acfg C s), kgBasisStep_sk C s,
    kgBasisStep_pk C s, by rw [kgBasisStep_status], by rw [kgBasisStep_status]⟩

theorem SameKeys.sampled (s : State) (v : List Int) (r : List SampleDraw) : SameKeys s (sampled v r s) :=
  ⟨sampled_build s v r, ps_congr (sampled_build s v r) (sampled_acfg s v r), sampled_sk s v r, sampled_pk s v r,
    by rw [sampled_status], by rw [sampled_status]⟩

/-- A state in which KEYGEN holds a candidate (R96). -/
abbrev HoldsCandidate (f : Fsm) : Prop := f = .kgBasis ∨ f = .kgSample ∨ f = .kgTest ∨ f = .kgCommit

/-- The candidate in SCRATCH is in its ranges (D66). -/
def CandidateInRange (s : State) : Prop := KeyInRange s.ps (candidateKey s) ∧ PublicInRange s.ps (candidateH s)

/-- With the same keys only the candidate is left to check. -/
theorem keyInv_of_sameKeys (hi : KeyInv s) (h : SameKeys s t)
    (hc : t.status.busy = true → HoldsCandidate t.st → CandidateInRange t) : KeyInv t := by
  obtain ⟨hw, hsk, hpk, -⟩ := hi
  refine ⟨h.build ▸ hw, ?_, ?_, hc⟩
  · rwa [h.skValid, h.ps, h.sk]
  · rwa [h.pkValid, h.ps, h.pk]

/-- Where no key is valid and no candidate is held, the build is all. -/
theorem keyInv_unkeyed (hw : s.build.wf = true) (hsk : s.status.skValid = false) (hpk : s.status.pkValid = false)
    (hst : ¬HoldsCandidate s.st) : KeyInv s :=
  ⟨hw, fun h => absurd (hsk.symm.trans h) (by decide), fun h => absurd (hpk.symm.trans h) (by decide),
    fun _ h => absurd h hst⟩

/-- A candidate stays in its ranges while SCRATCH gives back the same. -/
theorem candidateInRange_congr (hps : t.ps = s.ps) (hc : candidateKey t = candidateKey s ∧ candidateH t = candidateH s)
    (h : CandidateInRange s) : CandidateInRange t := by
  unfold CandidateInRange
  rwa [hps, hc.1, hc.2]

theorem not_holdsCandidate_of_computing {f : Fsm} (h : f ∈ computing) : ¬HoldsCandidate f := by
  revert h
  cases f <;> decide

theorem not_holdsCandidate_firstState (i : Instr) : ¬HoldsCandidate (firstState i) := by
  cases i <;> decide

theorem not_holdsCandidate_idle (f : Status) : ¬HoldsCandidate (idleState f) := by
  unfold idleState
  split <;> decide

theorem keyInv_effect {i : Instr} (hb : s.status.busy = true) (h : Effect Config.collab s i t) (hi : KeyInv s) :
    KeyInv t := by
  have ⟨hw, hsk, hpk, hcand⟩ := hi
  have hbounds := setBounds_active hw
  have stores {u : State} (h : SameStores s u) (hst : ¬HoldsCandidate u.st) : KeyInv u :=
    keyInv_of_sameKeys hi (.of_stores h) fun _ hc => absurd hc hst
  have finish : ¬HoldsCandidate .finish := by decide
  cases h with
  | waits => exact hi
  | enters i => exact stores (.entered s _) (not_holdsCandidate_firstState i)
  | works _ hst hw => exact stores (.of_works hw) (not_holdsCandidate_of_computing (hw.st_mem hst))
  | finishes _ _ hw => exact stores (SameStores.of_works hw).finishOk finish
  | fails _ _ hw => exact stores ((SameStores.of_works hw).raiseError _) finish
  | accepts _ _ hw => exact stores (SameStores.of_works hw).accept finish
  | rejects _ _ hw => exact stores (SameStores.of_works hw).reject finish
  | restarts _ hw => exact stores (SameStores.of_works hw).kgRestart (show ¬HoldsCandidate .kgGenerate by decide)
  | ends => exact stores (.ended s _) (not_holdsCandidate_idle _)
  | latches | tearsDown => exact keyInv_unkeyed hw rfl rfl finish
  | retries r hst => exact keyInv_of_sameKeys hi ⟨rfl, rfl, rfl, rfl, rfl, rfl⟩ hcand
  | draws c r =>
    refine keyInv_of_sameKeys hi ⟨rfl, rfl, rfl, rfl, rfl, rfl⟩ fun _ _ => ?_
    exact putCandidate_inRange (s := countCandidate r s) hbounds (contractCandidate_key hbounds c)
      (contractCandidate_h hbounds.q_pos c)
  | buildsCandidate hst =>
    have hkeys := SameKeys.kgBasisStep Config.collab s
    exact keyInv_of_sameKeys hi hkeys fun _ _ =>
      candidateInRange_congr hkeys.ps (candidate_kgBasisStep ..) (hcand hb (.inl hst))
  | samples v r hst =>
    have hkeys := SameKeys.sampled s v r
    exact keyInv_of_sameKeys hi hkeys fun _ _ =>
      candidateInRange_congr hkeys.ps (candidate_sampled ..) (hcand hb (.inr (.inl hst)))
  | passes hst =>
    exact keyInv_of_sameKeys hi ⟨rfl, rfl, rfl, rfl, rfl, rfl⟩ fun _ _ => hcand hb (.inr (.inr (.inl hst)))
  | commits hst =>
    obtain ⟨hkey, hh⟩ := hcand hb (.inr (.inr (.inr hst)))
    exact ⟨hw, fun _ => hkey, fun _ => hh, fun _ h => absurd h finish⟩
  | loadsCached _ _ hk =>
    exact ⟨hw, fun _ => loadedKey_inRange hw hk, hpk, fun _ h => absurd h (show ¬HoldsCandidate .kyBasis by decide)⟩
  | loadsTransient _ _ hk => exact ⟨hw, fun _ => loadedKey_inRange hw hk, hpk, fun _ h => absurd h finish⟩
  | installs => exact keyInv_of_sameKeys hi ⟨rfl, rfl, rfl, rfl, rfl, rfl⟩ fun _ h => absurd h finish
  | loadsPk _ hh => exact ⟨hw, hsk, fun _ => loadedPk_inRange hw hh, fun _ h => absurd h finish⟩

/-- Settles O57: a key comes into a store from a decoder or from a candidate in its ranges. -/
theorem stepKeepsKeysInRange : Obligations.StepKeepsKeysInRange := fun _ _ =>
  step_keeps_effect (fun _ _ ho h => by rw [ho]; exact h)
    (fun _ _ _ hi => keyInv_of_sameKeys hi ⟨rfl, rfl, rfl, rfl, rfl, rfl⟩ fun _ h =>
      absurd h (show ¬HoldsCandidate .dispatch by decide))
    (fun _ ⟨hw, _⟩ => keyInv_unkeyed hw rfl rfl (show ¬HoldsCandidate .unconfigured by decide))
    (fun _ _ _ hb he hi => keyInv_effect hb he hi)

end Sys2Proof.Proofs.KeyRanges
end

section
/-! The registers as the host reads and writes them (10_state.md R14 - R24; 20_memory.md R37). -/

namespace Sys2Proof.Proofs.Registers

open Sys2Proof Sys2Proof.Machine Sys2Proof.Claims

/-! ### Byte enables -/

/-- A data bit passes where its lane is enabled (R37). -/
theorem laneMask_bit (be : ByteEnables) {k : Nat} (hk : k < 32) : (laneMask be).getLsbD k = be.getLsbD (k / 8) := by
  have lane (b : Bool) {j : Nat} (hj : j < 8) : (if b then (0xFF : Byte) else 0).getLsbD j = b := by
    cases b
    · exact BitVec.getLsbD_zero
    · revert j
      decide
  unfold laneMask
  simp only [BitVec.getLsbD_append]
  split
  · rw [lane _ ‹_›, show k / 8 = 0 by omega]
  split
  · rw [lane _ ‹_›, show k / 8 = 1 by omega]
  split
  · rw [lane _ ‹_›, show k / 8 = 2 by omega]
  · rw [lane _ (by omega), show k / 8 = 3 by omega]

/-- A register after a write has the data in its enabled lanes and its old bits in the others (R37). -/
theorem mergeLanes_bit (old d : Word) (be : ByteEnables) {k : Nat} (hk : k < 32) :
    (mergeLanes old d be).getLsbD k = if be.getLsbD (k / 8) then d.getLsbD k else old.getLsbD k := by
  simp only [mergeLanes, BitVec.getLsbD_or, BitVec.getLsbD_and, BitVec.getLsbD_not, laneMask_bit be hk, hk]
  cases be.getLsbD (k / 8) <;> simp

/-! ### STATUS bit by bit -/

/-- Bits 0 to 11 of STATUS (R19). -/
def statusFlags (f : Status) : List Bool :=
  [f.busy, f.done, f.err, f.accept, f.reject, f.configured, f.skValid, f.pkValid, f.basisValid, f.overrun,
    f.busErr, false]

theorem statusWord_bit (s : State) {k : Nat} (hk : k < 32) :
    (statusWord s).getLsbD k =
      if k < 12 then (statusFlags s.status).getD k false
      else if k < 16 then (errBits s.status.errcode).getLsbD (k - 12)
      else if k < 24 then (fsmCode s.st).getLsbD (k - 16)
      else s.status.lastOp.getLsbD (k - 24) := by
  unfold statusWord
  simp only [BitVec.getLsbD_append]
  interval_cases k <;> simp [statusFlags]

theorem statusWord_flag (s : State) {k : Nat} (hk : k < 12) :
    (statusWord s).getLsbD k = (statusFlags s.status).getD k false := by rw [statusWord_bit s (by omega), if_pos hk]

theorem statusWord_errcode (s : State) : (statusWord s).extractLsb' 12 4 = errBits s.status.errcode := by
  refine BitVec.eq_of_getLsbD_eq fun j hj => ?_
  rw [BitVec.getLsbD_extractLsb', statusWord_bit s (by omega), if_neg (by omega), if_pos (by omega),
    Nat.add_sub_cancel_left]
  simp [hj]

theorem statusWord_fsm (s : State) : (statusWord s).extractLsb' 16 8 = fsmCode s.st := by
  refine BitVec.eq_of_getLsbD_eq fun j hj => ?_
  rw [BitVec.getLsbD_extractLsb', statusWord_bit s (by omega), if_neg (by omega), if_neg (by omega), if_pos (by omega),
    Nat.add_sub_cancel_left]
  simp [hj]

theorem statusWord_lastOp (s : State) : (statusWord s).extractLsb' 24 8 = s.status.lastOp := by
  refine BitVec.eq_of_getLsbD_eq fun j hj => ?_
  rw [BitVec.getLsbD_extractLsb', statusWord_bit s (by omega), if_neg (by omega), if_neg (by omega), if_neg (by omega),
    Nat.add_sub_cancel_left]
  simp [hj]

/-- A STATUS write clears in the word what it names among bits 1, 9 and 10 (R19). -/
theorem statusWord_statusWrite (s : State) (d : Word) :
    statusWord { s with status := statusWrite d s.status } = statusWord s &&& ~~~(d &&& 0x00000602) := by
  have hmask : ∀ k < 32, (0x00000602 : Word).getLsbD k = (decide (k = 1) || decide (k = 9) || decide (k = 10)) := by
    decide
  refine BitVec.eq_of_getLsbD_eq fun k hk => ?_
  rw [BitVec.getLsbD_and, BitVec.getLsbD_not, BitVec.getLsbD_and, statusWord_bit _ hk, statusWord_bit _ hk, hmask k hk]
  dsimp only [statusWrite]
  split
  · interval_cases k <;> simp [statusFlags]
  · simp only [hk, show k ≠ 1 by omega, show k ≠ 9 by omega, show k ≠ 10 by omega]
    simp

/-- The word is that of the stored flags and of `st` alone. -/
theorem statusWord_congr {s t : State} (hf : t.status = s.status) (hst : t.st = s.st) :
    statusWord t = statusWord s := by
  simp only [statusWord, hf, hst]

/-- Without the FSM_STATE field the word is that of a block in state 0 of R55. -/
theorem statusWord_without_fsm (s : State) :
    statusWord s &&& 0xFF00FFFF = statusWord { s with st := .unconfigured } := by
  have hmask : ∀ k < 32, (0xFF00FFFF : Word).getLsbD k = !(decide (16 ≤ k) && decide (k < 24)) := by decide
  refine BitVec.eq_of_getLsbD_eq fun k hk => ?_
  rw [BitVec.getLsbD_and, statusWord_bit _ hk, statusWord_bit _ hk, hmask k hk]
  by_cases hfield : 16 ≤ k ∧ k < 24
  · simp [hfield, fsmCode, show ¬k < 12 by omega, show ¬k < 16 by omega]
  · rw [show (decide (16 ≤ k) && decide (k < 24)) = false by simpa using hfield, Bool.not_false, Bool.and_true]
    split
    · rfl
    split
    · rfl
    rw [if_neg (by omega), if_neg (by omega)]

/-- Without the BASIS_VALID bit the word is that of a block whose bit is 0. -/
theorem statusWord_without_basisValid (s : State) :
    statusWord s &&& 0xFFFFFEFF = statusWord { s with status := { s.status with basisValid := false } } := by
  have hmask : ∀ k < 32, (0xFFFFFEFF : Word).getLsbD k = !decide (k = 8) := by decide
  refine BitVec.eq_of_getLsbD_eq fun k hk => ?_
  rw [BitVec.getLsbD_and, statusWord_bit _ hk, statusWord_bit _ hk, hmask k hk]
  by_cases hbit : k = 8
  · subst hbit
    simp [statusFlags]
  · rw [decide_eq_false hbit, Bool.not_false, Bool.and_true]
    split
    · interval_cases k <;> first | rfl | contradiction
    · rfl

/-! ### What a host read shows -/

/-- The registers the host sees are those of the model's view: `seen` writes it out. -/
theorem seen_eq_hostView (s : State) : seen s = hostView s := by
  unfold seen hostView
  rw [show encode .keygen = 0x00000010 by decide]
  split <;> simp [*]

@[simp] theorem hostView_build (s : State) : (hostView s).build = s.build := by unfold hostView; split <;> rfl
@[simp] theorem hostView_ie (s : State) : (hostView s).ie = s.ie := by unfold hostView; split <;> rfl
@[simp] theorem hostView_kgAttempts (s : State) : (hostView s).kgAttempts = s.kgAttempts := by
  unfold hostView; split <;> rfl
@[simp] theorem hostView_st (s : State) : (hostView s).st = s.st := by unfold hostView; split <;> rfl
@[simp] theorem hostView_busy (s : State) : (hostView s).status.busy = s.status.busy := by
  unfold hostView; split <;> rfl
@[simp] theorem hostView_done (s : State) : (hostView s).status.done = s.status.done := by
  unfold hostView; split <;> rfl
@[simp] theorem hostView_overrun (s : State) : (hostView s).status.overrun = s.status.overrun := by
  unfold hostView; split <;> rfl
@[simp] theorem hostView_busErr (s : State) : (hostView s).status.busErr = s.status.busErr := by
  unfold hostView; split <;> rfl
@[simp] theorem hostView_lastOp (s : State) : (hostView s).status.lastOp = s.status.lastOp := by
  unfold hostView; split <;> rfl

/-- The bits a STATUS write clears are live in every read. -/
theorem hostView_statusWrite (s : State) (d : Word) :
    hostView { s with status := statusWrite d s.status }
      = { hostView s with status := statusWrite d (hostView s).status } := by
  unfold hostView
  rw [show (statusWrite d s.status).busy = s.status.busy from rfl]
  split <;> rfl

/-! ### The statements on single registers -/

/-- The code of each outcome is in the table of R120. -/
theorem errBits_mem (e : ErrCode) : (e, (errBits e).toNat) ∈ errCodes := by cases e <;> decide

/-- The code of each state is in the table of R55. -/
theorem fsmCode_mem (f : Fsm) : (f, (fsmCode f).toNat) ∈ fsmCodes := by cases f <;> decide

/-- Settles O11: STATUS is read as the word of the view, flag by flag and field by field. -/
theorem statusShowsItsFields : Obligations.StatusShowsItsFields := by
  intro s
  simp only [seen_eq_hostView, busReadData_reg (a := 0x014) (r := .status) rfl, readReg, statusWord_errcode,
    statusWord_fsm, statusWord_lastOp, hostView_st, hostView_lastOp]
  have flag := fun k hk => statusWord_flag (hostView s) (k := k) hk
  rw [flag 0 (by decide), flag 1 (by decide), flag 2 (by decide), flag 3 (by decide), flag 4 (by decide),
    flag 5 (by decide), flag 6 (by decide), flag 7 (by decide), flag 8 (by decide), flag 9 (by decide),
    flag 10 (by decide), flag 11 (by decide)]
  exact ⟨hostView_busy s, hostView_done s, rfl, rfl, rfl, rfl, rfl, rfl, rfl, hostView_overrun s, hostView_busErr s, rfl,
    errBits_mem _, fsmCode_mem _, trivial⟩

/-- Settles O12: the write acts on the stored flags as on the word read. -/
theorem statusWriteClearsWhatItNames : Obligations.StatusWriteClearsWhatItNames := by
  intro s d be
  rw [busWrite_reg (a := 0x014) (r := .status) rfl]
  refine ⟨?_, rfl⟩
  simp only [busReadData_reg (a := 0x014) (r := .status) rfl, readReg, writeReg, hostView_statusWrite,
    statusWord_statusWrite]

theorem unlessBusy_idle {s : State} (h : s.status.busy = false) (s' : State) : unlessBusy s s' = s' := by
  simp [unlessBusy, h]

/-- CTRL reads IE in bit 0 (R20). -/
theorem ctrlWord_bit0 (s : State) : (ctrlWord s).getLsbD 0 = s.ie := by
  simp only [ctrlWord, BitVec.getLsbD_append]
  simp

/-- Settles O14: each register's write rule while idle, and the lanes bit by bit. -/
theorem registerWritesHonourByteEnables : Obligations.RegisterWritesHonourByteEnables := by
  intro s d be hb
  refine ⟨fun old k hk => mergeLanes_bit old d be hk, fun hc => ⟨?_, ?_⟩, fun hc => ⟨?_, ?_⟩, ?_, ?_, ?_, ?_, ?_⟩
  · rw [busWrite_reg (r := .cfg0) rfl, writeReg, unlessBusy_idle hb, hc]; rfl
  · rw [busWrite_reg (r := .cfg1) rfl, writeReg, unlessBusy_idle hb, hc]; rfl
  · rw [busWrite_reg (r := .cfg0) rfl, writeReg, unlessBusy_idle hb, if_pos hc]
  · rw [busWrite_reg (r := .cfg1) rfl, writeReg, unlessBusy_idle hb, if_pos hc]
  · rw [busWrite_reg (r := .ctrl) rfl, writeReg, unlessBusy_idle hb, mergeLanes_bit _ _ _ (by decide), ctrlWord_bit0]
  · rw [busWrite_reg (r := .msgLen) rfl, writeReg, unlessBusy_idle hb]
  · rw [busWrite_reg (r := .sigLen) rfl, writeReg, unlessBusy_idle hb]
  · rw [busWrite_reg (r := .pkLen) rfl, writeReg, unlessBusy_idle hb]
  · rw [busWrite_reg (r := .skLen) rfl, writeReg, unlessBusy_idle hb]

/-- Settles O9: the two cases of a CMD write. -/
theorem cmdWriteStartsACommand : Obligations.CmdWriteStartsACommand := by
  intro s w be
  rw [busWrite_reg (a := 0x010) (r := .cmd) rfl, busReadData_reg (a := 0x010) (r := .cmd) rfl]
  refine ⟨rfl, fun hb => ?_, fun hb => if_pos hb⟩
  have hop : w.extractLsb' 0 8 = BitVec.ofNat 8 (w.toNat % 256) :=
    BitVec.eq_of_toNat_eq (by simp)
  rw [writeReg, hb, if_neg Bool.false_ne_true, startCommand, hop]

/-- The five bits of CAPS (R16). -/
theorem capsWord_bit (b : Build) (k : Nat) :
    (capsWord b).getLsbD k = [b.keygen, b.sign, b.verify, b.huffman, b.hwntt].getD k false := by
  unfold capsWord
  by_cases hk : k < 5
  · simp only [BitVec.getLsbD_append]
    interval_cases k <;> simp
  · rw [List.getD_eq_default _ _ (by simpa using hk)]
    simp only [BitVec.getLsbD_append]
    rw [if_neg (by omega), if_neg (by omega), if_neg (by omega), if_neg (by omega), if_neg (by omega)]
    exact BitVec.getLsbD_zero

/-- The registers no write changes (R15, R16, R22 - R24). -/
theorem busWrite_readOnly {a : BusAddr} (h : a.toNat < 8 ∨ 0x02C ≤ a.toNat ∧ a.toNat < 0x068) (d : Word)
    (be : ByteEnables) (s : State) : busWrite a d be s = s := by
  have hk : a.toNat / 4 < 2 ∨ 11 ≤ a.toNat / 4 ∧ a.toNat / 4 < 26 := by omega
  have ro : ∀ k < 26, k < 2 ∨ 11 ≤ k → ∃ r, regTable[k]? = some r ∧ ∀ d be s, writeReg r d be s = s := by
    intro k hk hr
    interval_cases k <;> first | omega | exact ⟨_, rfl, fun _ _ _ => rfl⟩
  obtain ⟨r, hr, hro⟩ := ro (a.toNat / 4) (by omega) (by omega)
  rw [busWrite_reg hr, hro]

/-- The P registers read a field of the active set while CONFIGURED = 1 (R23). -/
theorem busReadData_param (s : State) {a : BusAddr}
    (ha : a ∈ [(0x038 : BusAddr), 0x03C, 0x040, 0x044, 0x048, 0x04C, 0x050]) :
    ∃ f, busReadData a s = paramWord (hostView s) f := by
  simp only [List.mem_cons, List.not_mem_nil, or_false] at ha
  rcases ha with rfl | rfl | rfl | rfl | rfl | rfl | rfl
  · exact ⟨_, busReadData_reg (r := .pN) rfl s⟩
  · exact ⟨_, busReadData_reg (r := .pQ) rfl s⟩
  · exact ⟨_, busReadData_reg (r := .pQBits) rfl s⟩
  · exact ⟨_, busReadData_reg (r := .pFgBits) rfl s⟩
  · exact ⟨_, busReadData_reg (r := .pFguBits) rfl s⟩
  · exact ⟨_, busReadData_reg (r := .pK) rfl s⟩
  · exact ⟨fun ps => ps.l1 (hostView s).acfg.variant, busReadData_reg (r := .pL1) rfl s⟩

/-- Settles O13: each read-only register through the view, and `busWrite_readOnly` for the writes. -/
theorem readOnlyRegisters : Obligations.ReadOnlyRegisters := by
  intro s
  have read (a : BusAddr) (r : Reg) (h : regTable[a.toNat / 4]? = some r) : busReadData a s = readReg (hostView s) r :=
    busReadData_reg h s
  simp only [seen_eq_hostView]
  rw [read 0x000 .id rfl, read 0x004 .caps rfl, read 0x02C .kgAttempts rfl, read 0x030 .verifiedCnt rfl,
    read 0x034 .unverifiedCnt rfl, read 0x054 .msgCapR rfl, read 0x058 .sigCapR rfl, read 0x05C .pkCapR rfl,
    read 0x060 .skCapR rfl, read 0x064 .nMaxR rfl, read 0x038 .pN rfl, read 0x03C .pQ rfl, read 0x040 .pQBits rfl,
    read 0x044 .pFgBits rfl, read 0x048 .pFguBits rfl, read 0x04C .pK rfl, read 0x050 .pL1 rfl]
  refine ⟨rfl, fun k => ?_, ?_, rfl, rfl, fun hc => ?_, fun hc => ?_, ?_, ?_, ?_, ?_, ?_,
    fun a d be h => busWrite_readOnly h d be s⟩
  · simpa [readReg] using capsWord_bit s.build k
  · exact hostView_kgAttempts s
  · intro a ha
    obtain ⟨f, hf⟩ := busReadData_param s ha
    rw [hf, paramWord, hc, if_neg Bool.false_ne_true]
  · simp only [readReg, paramWord, hc, if_true, true_and]
    cases (hostView s).acfg.variant <;> rfl
  all_goals simp only [readReg, hostView_build]

end Sys2Proof.Proofs.Registers
end

section
/-! A step runs the decoded command, cutting a command makes no difference, and what a host sees of a running command
(10_state.md R34 - R36; 60_exceptions.md R137). -/

namespace Sys2Proof.Proofs.Running

open Sys2Proof Sys2Proof.Machine Sys2Proof.Claims Sys2Proof.Proofs.Transitions Sys2Proof.Proofs.Invariants
  Sys2Proof.Proofs.Registers

/-- Settles O4: the collaborators' turn is `answered`, and what runs then is decoded from an unchanged CUR_CMD. -/
theorem stepRunsTheDecodedCommand : Obligations.StepRunsTheDecodedCommand := by
  intro s i hb hd hi
  have hrun : step s = runCurrent (receive s) := by
    rcases hi with hi | ⟨e, r, hi⟩ <;> simp [step, hi, hb]
  have hexec : runCurrent (receive s) = exec i (receive s) := by simp only [runCurrent, receive_curCmd, hd]
  exact hrun.trans hexec

/-- A transition that answers next is made from a state on the command's path (R34). -/
theorem advance_next {i : Instr} {s t : State} (h : advance i s = .next t) :
    onPath i s = true ∧ t = whenAnswered Config.collab i (transition Config.collab i) s := by
  unfold advance at h
  split at h
  · exact ⟨‹_›, by cases h; rfl⟩
  · cases h

theorem busy_of_onPath {i : Instr} {s : State} (h : onPath i s = true) : s.status.busy = true := by
  simp only [onPath, Bool.and_eq_true] at h
  exact h.1

/-- From a state on the path a meaning is the run of its moves. -/
theorem exec_onPath {i : Instr} {s : State} (h : onPath i s = true) :
    exec i s = .next (runSteps (whenAnswered Config.collab i (transition Config.collab i)) (enoughSteps s) s) := by
  rw [exec_eq_runCommand, runCommand, if_pos h]

/-- Settles O6: a run is the run from the state after its first move, and that is over where the move ended the command. -/
theorem cuttingACommandKeepsItsEnd : Obligations.CuttingACommandKeepsItsEnd := by
  intro i s t h
  obtain ⟨hp, rfl⟩ := advance_next h
  have hmove := runSteps_move Config.collab i (busy_of_onPath hp)
  refine ⟨fun hb => ?_, fun hb => ?_⟩
  · rw [exec_onPath hp, exec_onPath (whenAnswered_onPath _ _ hp hb), hmove]
  · rw [exec_onPath hp, hmove, runSteps_idle hb]

/-! ### What a running command shows -/

/-- `t` shows the host what `s` shows but for FSM_STATE, KG_ATTEMPTS and the bit that KEYGEN keeps live: both run a command,
with the same registers held back and the same live bits. -/
structure ShowsAlike (s t : State) : Prop where
  busy : s.status.busy = true
  busy' : t.status.busy = true
  build : t.build = s.build
  ie : t.ie = s.ie
  curCmd : t.curCmd = s.curCmd
  shown : t.shown = s.shown
  done : t.status.done = s.status.done
  overrun : t.status.overrun = s.status.overrun
  busErr : t.status.busErr = s.status.busErr
  lastOp : t.status.lastOp = s.status.lastOp

variable {s t : State}

/-- The live bits that transitions before the last leave alone. -/
theorem live_effect {i : Instr} (h : Effect Config.collab s i t) (hst : s.st ≠ .finish) :
    t.ie = s.ie ∧ t.status.done = s.status.done ∧ t.status.overrun = s.status.overrun
      ∧ t.status.busErr = s.status.busErr ∧ t.status.lastOp = s.status.lastOp := by
  cases h with
  | ends _ hf => exact absurd hf hst
  | works _ _ hw | finishes _ _ hw | fails _ _ hw | accepts _ _ hw | rejects _ _ hw | restarts _ hw =>
    simp [hw.ie, hw.status]
  | buildsCandidate => exact ⟨holdBasis_ie _ s, by simp [kgBasisStep_status]⟩
  | samples v r => exact ⟨releaseBasis_ie _, by simp [sampled_status]⟩
  | _ => exact ⟨rfl, rfl, rfl, rfl, rfl⟩

/-- KG_ATTEMPTS is counted by KEYGEN and cleared by CONFIGURE and DESTROY only (R22). -/
theorem kgAttempts_effect {i : Instr} (h : Effect Config.collab s i t) (hi : i ∉ [.keygen, .configure, .destroy]) :
    t.kgAttempts = s.kgAttempts := by
  cases h with
  | works _ _ hw | finishes _ _ hw | fails _ _ hw | accepts _ _ hw | rejects _ _ hw => exact hw.kgAttempts
  | waits | enters | ends | loadsCached | loadsTransient | installs | loadsPk => rfl
  | _ => simp at hi

/-- The registers below 0x68 by their word (R14, R38). -/
theorem reg_of_word {a : BusAddr} (ha : a.toNat < 0x068) :
    ∃ r, regTable[a.toNat / 4]? = some r ∧ (r = .status ↔ a.toNat / 4 * 4 = 0x014)
      ∧ (r = .kgAttempts ↔ a.toNat / 4 * 4 = 0x02C) := by
  have table : ∀ k < 26, ∃ r, regTable[k]? = some r ∧ (r = .status ↔ k * 4 = 0x014)
      ∧ (r = .kgAttempts ↔ k * 4 = 0x02C) := by
    intro k hk
    interval_cases k <;> exact ⟨_, rfl, by decide, by decide⟩
  exact table _ (by omega)

/-- Every register but the two that show progress reads alike. -/
theorem ShowsAlike.readReg (h : ShowsAlike s t) {r : Reg} (hs : r ≠ .status) (hk : r ≠ .kgAttempts) :
    readReg (hostView t) r = readReg (hostView s) r := by
  obtain ⟨hb, hb', hbuild, hie, -, hshown, -⟩ := h
  cases r <;> first | contradiction | simp [Machine.readReg, hostView, paramWord, State.ps, ctrlWord, *]

/-- But for FSM_STATE and BASIS_VALID the STATUS word reads alike. -/
theorem ShowsAlike.status (h : ShowsAlike s t) :
    statusWord (hostView t) &&& 0xFF00FEFF = statusWord (hostView s) &&& 0xFF00FEFF := by
  obtain ⟨hb, hb', -, -, -, hshown, hdone, hover, herr, hop⟩ := h
  rw [show (0xFF00FEFF : Word) = 0xFFFFFEFF &&& 0xFF00FFFF by decide, ← BitVec.and_assoc, ← BitVec.and_assoc,
    statusWord_without_basisValid, statusWord_without_basisValid, statusWord_without_fsm, statusWord_without_fsm]
  refine statusWord_congr ?_ rfl
  simp [hostView, *]

/-- While a command other than KEYGEN runs BASIS_VALID reads alike too. -/
theorem ShowsAlike.status_of_not_keygen (h : ShowsAlike s t) (hc : s.curCmd ≠ encode .keygen) :
    statusWord (hostView t) &&& 0xFF00FFFF = statusWord (hostView s) &&& 0xFF00FFFF := by
  obtain ⟨hb, hb', -, -, hcmd, hshown, hdone, hover, herr, hop⟩ := h
  rw [statusWord_without_fsm, statusWord_without_fsm]
  refine statusWord_congr ?_ rfl
  simp [hostView, *]

/-- A transition after which its command still runs shows the host nothing but progress (R36, R137). -/
theorem showsAlike_effect {i : Instr} (hb : s.status.busy = true) (hst : s.st ≠ .finish)
    (h : Effect Config.collab s i t) (hb' : t.status.busy = true) (hcmd : t.curCmd = s.curCmd)
    (hshown : t.shown = s.shown) : ShowsAlike s t := by
  obtain ⟨hie, hdone, hover, herr, hop⟩ := live_effect h hst
  exact ⟨hb, hb', StepInvariants.build_effect h, hie, hcmd, hshown, hdone, hover, herr, hop⟩

theorem showsAlike_refl (hb : s.status.busy = true) : ShowsAlike s s := ⟨hb, hb, rfl, rfl, rfl, rfl, rfl, rfl, rfl, rfl⟩

/-- One move of a running command: its effect, and what it shows. -/
theorem advance_shows {i : Instr} (h : advance i s = .next t) (hb' : t.status.busy = true) :
    ShowsAlike s t ∧ (i ∉ [.keygen, .configure, .destroy] → t.kgAttempts = s.kgAttempts) := by
  obtain ⟨hp, rfl⟩ := advance_next h
  have hb := busy_of_onPath hp
  rcases whenAnswered_cases Config.collab i (transition Config.collab i) s with e | e <;> rw [e] at hb' ⊢
  · exact ⟨showsAlike_refl hb, fun _ => rfl⟩
  · have heff := transition_effect Config.collab s i
    have hst : s.st ≠ .finish := by
      intro hf
      rw [transition_finish _ i hf] at hb'
      cases hb'
    obtain ⟨-, -, hkeeps⟩ := transition_keeps Config.collab i s
    obtain ⟨hcmd, hshown⟩ := hkeeps hst
    exact ⟨showsAlike_effect hb hst heff hb' hcmd hshown, kgAttempts_effect heff⟩

/-- An illegal word's transition after which it still runs records the error and nothing else (R51). -/
theorem advanceIllegal_shows (h : advanceIllegal s = .next t) (hb' : t.status.busy = true) :
    ShowsAlike s t ∧ t.kgAttempts = s.kgAttempts := by
  unfold advanceIllegal at h
  split at h <;> cases h
  rename_i hb
  rw [Bool.and_eq_true] at hb
  rcases illegalStep_cases s with ⟨-, e⟩ | ⟨-, e⟩ | ⟨-, -, e⟩ <;> rw [e] at hb' ⊢
  · exact ⟨⟨hb.1, hb', rfl, rfl, rfl, rfl, rfl, rfl, rfl, rfl⟩, rfl⟩
  · cases hb'
  · exact ⟨showsAlike_refl hb.1, rfl⟩

/-- The registers of a CMD write are what its command shows (R36). -/
theorem readReg_startCommand (w : Word) (hb : s.status.busy = false) {r : Reg} (hr : r ≠ .status) :
    readReg (hostView (startCommand w s)) r = readReg (hostView s) r := by
  rw [hostView_idle hb]
  cases r <;> first | contradiction | rfl

theorem curCmd_ne_keygen {i : Instr} (hd : decode s.curCmd = .ok i) (hi : i ≠ .keygen) : s.curCmd ≠ encode .keygen := by
  intro h
  rw [h, show decode (encode .keygen) = .ok .keygen by decide] at hd
  exact hi (by injection hd with hd; exact hd.symm)

theorem curCmd_ne_keygen_of_illegal {e : DecodeError} (hd : decode s.curCmd = .error e) :
    s.curCmd ≠ encode .keygen := by
  intro h
  rw [h, show decode (encode .keygen) = .ok .keygen by decide] at hd
  cases hd

/-- Settles O60: each register read of the three situations, through `ShowsAlike`. -/
theorem runningCommandShowsOnlyItsProgress : Obligations.RunningCommandShowsOnlyItsProgress := by
  intro s t a ha
  obtain ⟨r, hr, hstatus, hkg⟩ := reg_of_word ha
  have read (u : State) : busReadData a u = readReg (hostView u) r := busReadData_reg hr u
  have readStatus (u : State) (hw : a.toNat / 4 * 4 = 0x014) : busReadData a u = statusWord (hostView u) := by
    rw [read, hstatus.2 hw]; rfl
  refine ⟨fun i hd h hb => ?_, fun e hd h hb => ?_, fun w be hb hw => ?_⟩
  · obtain ⟨halike, hcount⟩ := advance_shows h hb
    refine ⟨fun hw => ?_, fun hw hi => ?_, fun hw => ?_, fun hw hi => ?_⟩
    · simp only [List.mem_cons, List.not_mem_nil, or_false, not_or] at hw
      rw [read, read, halike.readReg (mt hstatus.1 hw.1) (mt hkg.1 hw.2)]
    · rw [readStatus t hw, readStatus s hw, halike.status_of_not_keygen (curCmd_ne_keygen hd hi)]
    · rw [readStatus t hw, readStatus s hw, halike.status]
    · rw [read, read, hkg.2 hw, Machine.readReg, Machine.readReg, hostView_kgAttempts, hostView_kgAttempts, hcount hi]
  · obtain ⟨halike, hcount⟩ := advanceIllegal_shows h hb
    refine ⟨fun hw => ?_, fun hw => ?_⟩
    · by_cases hc : r = .kgAttempts
      · rw [read, read, hc, Machine.readReg, Machine.readReg, hostView_kgAttempts, hostView_kgAttempts, hcount]
      · rw [read, read, halike.readReg (mt hstatus.1 hw) hc]
    · rw [readStatus t hw, readStatus s hw, halike.status_of_not_keygen (curCmd_ne_keygen_of_illegal hd)]
  · rw [busWrite_reg (a := 0x010) (r := .cmd) rfl, writeReg, hb, if_neg Bool.false_ne_true, read, read,
      readReg_startCommand w hb (mt hstatus.1 hw)]

end Sys2Proof.Proofs.Running
end

section
/-! The host port and the window bytes (20_memory.md R37 - R44): which accesses land, what they do inside and outside the
buffers, and what the interlock drops while a command runs. -/

namespace Sys2Proof.Proofs.Memory

open Sys2Proof Sys2Proof.Machine Sys2Proof.Claims Sys2Proof.Proofs.Transitions Sys2Proof.Proofs.Invariants
  Sys2Proof.Proofs.Registers Sys2Proof.Proofs.Running

/-! ### A word of four lanes -/

theorem writeLane_wf {m : Mem} (h : m.wf) (a : Nat) (d : Word) (be : ByteEnables) (i : Nat) :
    (writeLane a d be i m).wf := by
  unfold writeLane
  split
  · exact writeByte_wf h _ _
  · exact h

theorem writeBufferWord_wf {m : Mem} (h : m.wf) (a : Nat) (d : Word) (be : ByteEnables) :
    (writeBufferWord a d be m).wf :=
  writeLane_wf (writeLane_wf (writeLane_wf (writeLane_wf h ..) ..) ..) ..

/-- An enabled lane puts its data bits into its own byte alone (R37, R40). -/
theorem readByte_writeLane {m : Mem} (h : m.wf) (a : Nat) (d : Word) (be : ByteEnables) (i x : Nat) :
    readByte (writeLane a d be i m) x =
      if x = a + i ∧ be.getLsbD i = true then d.extractLsb' (8 * i) 8 else readByte m x := by
  unfold writeLane
  by_cases hi : be.getLsbD i = true
  · rw [if_pos hi, readByte_writeByte h]
    simp only [hi, and_true]
  · rw [if_neg hi, if_neg fun hc => hi hc.2]

/-- After a word write a byte of the word is that of the data where its lane is enabled (R40). -/
theorem readByte_writeBufferWord {m : Mem} (h : m.wf) (a : Nat) (d : Word) (be : ByteEnables) {i : Nat} (hi : i < 4) :
    readByte (writeBufferWord a d be m) (a + i) =
      if be.getLsbD i then d.extractLsb' (8 * i) 8 else readByte m (a + i) := by
  have h0 := writeLane_wf h a d be 0
  have h1 := writeLane_wf h0 a d be 1
  have h2 := writeLane_wf h1 a d be 2
  simp only [writeBufferWord, readByte_writeLane h2, readByte_writeLane h1, readByte_writeLane h0, readByte_writeLane h,
    Nat.add_left_cancel_iff]
  interval_cases i <;> simp

/-- A word write leaves every byte outside its word (R39). -/
theorem readByte_writeBufferWord_outside {m : Mem} (h : m.wf) (a : Nat) (d : Word) (be : ByteEnables) {x : Nat}
    (hx : x < a ∨ a + 4 ≤ x) : readByte (writeBufferWord a d be m) x = readByte m x := by
  have other {m : Mem} (h : m.wf) {i : Nat} (hi : i < 4) : readByte (writeLane a d be i m) x = readByte m x := by
    rw [readByte_writeLane h, if_neg (by omega)]
  have h0 := writeLane_wf h a d be 0
  have h1 := writeLane_wf h0 a d be 1
  have h2 := writeLane_wf h1 a d be 2
  rw [writeBufferWord, other h2 (by decide), other h1 (by decide), other h0 (by decide), other h (by decide)]

/-- Byte i of a word read is the byte at offset i (R40). -/
theorem readBufferWord_byte (m : Mem) (a : Nat) {i : Nat} (hi : i < 4) :
    (readBufferWord m a).extractLsb' (8 * i) 8 = readByte m (a + i) := by
  refine BitVec.eq_of_getLsbD_eq fun j hj => ?_
  unfold readBufferWord
  rw [BitVec.getLsbD_extractLsb']
  simp only [BitVec.getLsbD_append]
  interval_cases i
  · simp [hj]
  · simp [hj, show ¬8 + j < 8 by omega]
  · simp [hj, show ¬16 + j < 8 by omega, show ¬16 + j - 8 < 8 by omega, show 16 + j - 8 - 8 = j by omega]
  · simp [hj, show ¬24 + j < 8 by omega, show ¬24 + j - 8 < 8 by omega, show ¬24 + j - 8 - 8 < 8 by omega,
      show 24 + j - 8 - 8 - 8 = j by omega]

/-- Two words with the same four bytes are one. -/
theorem word_eq_of_bytes {v w : Word} (h : ∀ i < 4, v.extractLsb' (8 * i) 8 = w.extractLsb' (8 * i) 8) : v = w := by
  refine BitVec.eq_of_getLsbD_eq fun k hk => ?_
  have hbit := congrArg (BitVec.getLsbD · (k % 8)) (h (k / 8) (by omega))
  simpa [BitVec.getLsbD_extractLsb', Nat.mod_lt, Nat.div_add_mod] using hbit

/-- A full word written is read back (R40). -/
theorem readBufferWord_writeBufferWord {m : Mem} (h : m.wf) (a : Nat) (d : Word) :
    readBufferWord (writeBufferWord a d 0xF m) a = d := by
  have full : ∀ i < 4, (0xF : ByteEnables).getLsbD i = true := by decide
  refine word_eq_of_bytes fun i hi => ?_
  rw [readBufferWord_byte _ _ hi, readByte_writeBufferWord h a d _ hi, if_pos (full i hi)]

/-! ### Which word an access reaches -/

/-- An access whose word lies in a window's buffer reaches that word (R37, R39). -/
theorem busTarget_inWindow {b : Build} {a : BusAddr} {win : Window} (hwf : b.wf = true)
    (h : InWindow b win (a.toNat / 4 * 4)) : busTarget b a = .buffer win (a.toNat / 4 * 4 - windowBase win) :=
  busTarget_buffer (windowCap_le hwf win) h.1 h.2

theorem busWrite_inWindow {s : State} {a : BusAddr} {win : Window} (hwf : s.build.wf = true)
    (h : InWindow s.build win (a.toNat / 4 * 4)) (d : Word) (be : ByteEnables) :
    busWrite a d be s = unlessBusy s { s with mem := writeBufferWord (a.toNat / 4 * 4) d be s.mem } := by
  rw [busWrite_buffer (busTarget_inWindow hwf h), Nat.add_sub_cancel' h.1]

theorem busReadData_inWindow {s : State} {a : BusAddr} {win : Window} (hwf : s.build.wf = true)
    (h : InWindow s.build win (a.toNat / 4 * 4)) :
    busReadData a s = if s.status.busy then 0 else readBufferWord s.mem (a.toNat / 4 * 4) := by
  rw [(busRead_buffer (busTarget_inWindow hwf h)).1, Nat.add_sub_cancel' h.1]

/-- The reserved addresses of the map reach nothing (R38). -/
theorem busTarget_of_reserved {b : Build} {a : BusAddr} (hwf : b.wf = true) (h : Reserved (a.toNat / 4 * 4)) :
    busTarget b a = .nothing := by
  unfold Reserved at h
  refine busTarget_nothing (by omega) fun win => ?_
  have hcap := windowCap_le hwf win
  cases win <;> simp only [windowBase] <;> omega

/-! ### The canonical form -/

theorem works_wf {s t : State} (hw : Works s t) (h : s.mem.wf) : t.mem.wf := by
  induction hw with
  | start => exact h
  | put _ _ _ ih | draw _ _ ih | hold _ _ ih | enter _ _ _ ih => exact ih
  | store _ win bytes ih => exact windowStore_wf ih win bytes

/-- No host access breaks the canonical form. -/
theorem hostEffect_wf {s t : State} (he : HostEffect s t) (h : s.mem.wf) : t.mem.wf := by
  cases he with
  | bytes _ a d be => exact writeBufferWord_wf h a d be
  | reset => exact wf_nil
  | ignored | data | busErr | busErrData | overrun | cleared | config | start | enable | lengths => exact h

/-- No transition of a command breaks the canonical form. -/
theorem effect_wf {C : Collab} {s t : State} {i : Instr} (he : Effect C s i t) (h : s.mem.wf) : t.mem.wf := by
  cases he with
  | works _ _ hw | finishes _ _ hw | fails _ _ hw | accepts _ _ hw | rejects _ _ hw | restarts _ hw =>
    have hworked := works_wf hw h
    exact hworked
  | tearsDown => exact wf_nil
  | buildsCandidate => rwa [kgBasisStep, scratchPut_mem, holdBasis_mem]
  | samples => rwa [sampled, releaseBasis_mem]
  | loadsTransient | installs => rwa [finishOk_mem, installKey_mem]
  | waits | enters | latches | retries | draws | passes | commits | loadsCached | loadsPk | ends => exact h

/-- Settles O51: the memory changes only by word writes, window stores and clearing, and each keeps the form. -/
theorem stepKeepsMemoryCanonical : Obligations.StepKeepsMemoryCanonical := fun _ _ =>
  step_keeps (P := fun s => s.mem.wf) (fun _ _ h => h) (fun _ h => h) (fun _ _ he h => hostEffect_wf he h)
    (fun i s _ _ h => effect_wf (transition_effect Config.collab s i) h)
    (fun s _ _ _ h => effect_wf (illegalStep_effect Config.collab s) h)

/-! ### The statements on single accesses -/

/-- Settles O15: the word's bytes after a write and in a read, and the read of a full write. -/
theorem windowAccessIsLittleEndian : Obligations.WindowAccessIsLittleEndian := by
  intro s a d be win hb hmem hwf hin
  have write (be : ByteEnables) :
      busWrite a d be s = { s with mem := writeBufferWord (a.toNat / 4 * 4) d be s.mem } := by
    rw [busWrite_inWindow hwf hin, unlessBusy_idle hb]
  have read {t : State} (ht : t.status.busy = false) (hbuild : t.build = s.build) :
      busReadData a t = readBufferWord t.mem (a.toNat / 4 * 4) := by
    rw [busReadData_inWindow (hbuild ▸ hwf) (hbuild ▸ hin), ht, if_neg Bool.false_ne_true]
  rw [write, write, read hb rfl]
  exact ⟨fun _ hi => readByte_writeBufferWord hmem _ d be hi,
    fun _ hx => readByte_writeBufferWord_outside hmem _ d be hx, rfl, fun _ hi => readBufferWord_byte _ _ hi,
    (read (t := { s with mem := writeBufferWord _ d 0xF s.mem }) hb rfl).trans (readBufferWord_writeBufferWord hmem _ d)⟩

/-- Settles O16: such an access reaches nothing. -/
theorem reservedAddressesAreInert : Obligations.ReservedAddressesAreInert := by
  intro s a d be hlow hout _
  have hnothing : busTarget s.build a = .nothing := busTarget_nothing hlow hout
  obtain ⟨hdata, hread⟩ := busRead_nothing hnothing
  exact ⟨hdata, busWrite_nothing hnothing d be, hread⟩

/-- Settles O5: the cases of a step, with the collaborators' turn written out. -/
theorem accessesLandOneAtATime : Obligations.AccessesLandOneAtATime := by
  intro s
  refine ⟨fun hb hi => ?_, fun a r hi hnow => ?_, fun k e r i hb hi hd => ?_⟩
  · simp [step, hi, hb]
  · rcases hnow with hb | h0
    · simp [step, hi, hb]
    · cases hb : s.status.busy <;> simp [step, hi, hb, h0]
  · have hcut : step s = advanceCurrent (receive { s with inbox := ⟨some k, e⟩ :: r }) := by simp [step, hi, hb]
    have hadvance : advanceCurrent (receive { s with inbox := ⟨some k, e⟩ :: r })
        = advance i (receive { s with inbox := ⟨some k, e⟩ :: r }) := by simp only [advanceCurrent, receive_curCmd, hd]
    exact hcut.trans hadvance

/-! ### The interlock -/

theorem unlessBusy_busy {s : State} (h : s.status.busy = true) (s' : State) : unlessBusy s s' = busError s := if_pos h

/-- Writes to CFG0, CFG1, CTRL and the lengths are dropped with BUSERR (R42 a). -/
theorem busWrite_dropped {s : State} (hb : s.status.busy = true) {a : BusAddr}
    (ha : a.toNat / 4 * 4 ∈ [0x008, 0x00C, 0x018, 0x01C, 0x020, 0x024, 0x028]) (d : Word) (be : ByteEnables) :
    busWrite a d be s = busError s := by
  have drops : ∀ k ∈ [2, 3, 6, 7, 8, 9, 10], ∃ r, regTable[k]? = some r ∧ writeReg r d be s = busError s := by
    intro k hk
    fin_cases hk <;> exact ⟨_, rfl, unlessBusy_busy hb _⟩
  obtain ⟨r, hr, hdrop⟩ := drops (a.toNat / 4) (by
    simp only [List.mem_cons, List.not_mem_nil, or_false] at ha ⊢
    omega)
  rw [busWrite_reg hr, hdrop]

/-- A window access is dropped with BUSERR, and a read returns 0 (R42 a, b). -/
theorem busAccess_dropped {s : State} (hb : s.status.busy = true) (hwf : s.build.wf = true) {a : BusAddr} {win : Window}
    (hin : InWindow s.build win (a.toNat / 4 * 4)) (d : Word) (be : ByteEnables) :
    busWrite a d be s = busError s ∧ busRead a s = { busError s with rdata := 0 } := by
  rw [busWrite_inWindow hwf hin, (busRead_buffer (busTarget_inWindow hwf hin)).2, unlessBusy_busy hb, unlessBusy_busy hb,
    if_pos hb]
  exact ⟨rfl, rfl⟩

/-- Clearing BUSY clears bit 0 of STATUS and no other (R19). -/
theorem statusWord_whenIdle (s : State) : statusWord (whenIdle s) = statusWord s &&& 0xFFFFFFFE := by
  have hmask : ∀ k < 32, (0xFFFFFFFE : Word).getLsbD k = !decide (k = 0) := by decide
  refine BitVec.eq_of_getLsbD_eq fun k hk => ?_
  rw [BitVec.getLsbD_and, statusWord_bit _ hk, statusWord_bit _ hk, hmask k hk]
  by_cases hbit : k = 0
  · subst hbit
    simp [statusFlags, whenIdle]
  · rw [decide_eq_false hbit, Bool.not_false, Bool.and_true]
    split
    · obtain ⟨j, rfl⟩ := Nat.exists_eq_succ_of_ne_zero hbit
      rfl
    · rfl

/-- No register but STATUS reads BUSY. -/
theorem readReg_whenIdle (s : State) {r : Reg} (hr : r ≠ .status) : readReg (whenIdle s) r = readReg s r := by
  cases r with
  | status => exact absurd rfl hr
  | _ => rfl

/-- A register read changes nothing but the word the host holds, and finds what it finds while idle (R41, R42 d). -/
theorem busRead_register (s : State) {a : BusAddr} (ha : a.toNat / 4 * 4 < 0x068) :
    busRead a s = { s with rdata := busReadData a s }
      ∧ busReadData a (whenIdle (seen s)) =
          if a.toNat / 4 * 4 = 0x014 then busReadData a s &&& 0xFFFFFFFE else busReadData a s := by
  obtain ⟨r, hr, hstatus, -⟩ := reg_of_word (a := a) (by omega)
  rw [busRead_reg hr, busReadData_reg hr, busReadData_reg hr, hostView_idle (s := whenIdle _) rfl, seen_eq_hostView]
  refine ⟨rfl, ?_⟩
  split
  · rw [hstatus.2 ‹_›]
    exact statusWord_whenIdle (hostView s)
  · exact readReg_whenIdle _ (mt hstatus.1 ‹_›)

/-- STATUS writes do what they do while idle (R42 d). -/
theorem busWrite_status_whenIdle (s : State) {a : BusAddr} (ha : a.toNat / 4 * 4 = 0x014) (d : Word) (be : ByteEnables) :
    busWrite a d be (whenIdle s) = whenIdle (busWrite a d be s) := by
  have hr : regTable[a.toNat / 4]? = some .status := by rw [show a.toNat / 4 = 5 by omega]; rfl
  rw [busWrite_reg hr, busWrite_reg hr]
  rfl

/-- Accesses to reserved addresses do what they do while idle: nothing (R42 d). -/
theorem busAccess_reserved_whenIdle {s : State} (hwf : s.build.wf = true) {a : BusAddr}
    (ha : Reserved (a.toNat / 4 * 4)) (d : Word) (be : ByteEnables) :
    busWrite a d be (whenIdle s) = whenIdle (busWrite a d be s) ∧ busRead a (whenIdle s) = whenIdle (busRead a s) := by
  have hnothing : busTarget s.build a = .nothing := busTarget_of_reserved hwf ha
  have hidle : busTarget (whenIdle s).build a = .nothing := hnothing
  rw [busWrite_nothing hnothing, busWrite_nothing hidle, (busRead_nothing hnothing).2, (busRead_nothing hidle).2]
  exact ⟨rfl, rfl⟩

/-- Settles O10: one rule for each class of addresses. -/
theorem busyInterlockDropsAccesses : Obligations.BusyInterlockDropsAccesses := by
  intro s a d be hb hwf
  refine ⟨fun h => busWrite_dropped hb h d be, fun win h => busAccess_dropped hb hwf h d be, fun h => ?_,
    fun h => busRead_register s h, fun h => ?_, fun h => (busAccess_reserved_whenIdle hwf h d be).2⟩
  · have hr : regTable[a.toNat / 4]? = some .cmd := by rw [show a.toNat / 4 = 4 by omega]; rfl
    rw [hostEvent, busWrite_reg hr, writeReg, if_pos hb]
  · rcases h with h | h
    · exact busWrite_status_whenIdle s h d be
    · exact (busAccess_reserved_whenIdle hwf h d be).1

end Sys2Proof.Proofs.Memory
end

section
/-! The opcode map is a bijection between the commands and their words (30_encoding.md R49 - R51), and what a word outside it
does (R51). -/

namespace Sys2Proof.Proofs.Encoding

open Sys2Proof Sys2Proof.Machine Sys2Proof.Claims

/-! ### The decoder and the encoder -/

/-- A command word is its two fields (R49). -/
theorem cwRsv_append_cwOpc (w : Word) : cwRsv w ++ cwOpc w = w := by
  have hjoin := BitVec.extractLsb'_append_extractLsb'_eq_extractLsb' (x := w) (start₁ := 0) (len₁ := 8) (start₂ := 8)
    (len₂ := 24) rfl
  exact hjoin.trans BitVec.extractLsb'_eq_self

theorem commandWord (i : Instr) : Laws.CommandWord.Statement i := by
  cases i
  case configure => exact Laws.CommandWord.configure
  case destroy => exact Laws.CommandWord.destroy
  case keygen => exact Laws.CommandWord.keygen
  case loadSk => exact Laws.CommandWord.loadSk
  case loadPk => exact Laws.CommandWord.loadPk
  case storeSk => exact Laws.CommandWord.storeSk
  case storePk => exact Laws.CommandWord.storePk
  case sign => exact Laws.CommandWord.sign
  case signRec => exact Laws.CommandWord.signRec
  case verify => exact Laws.CommandWord.verify
  case verifyRec => exact Laws.CommandWord.verifyRec

/-- An OPC value selects a command exactly when it is that command's (R50). -/
theorem decodeOpc_eq_some_iff {o : Byte} {i : Instr} : decodeOpc o = some i ↔ o = opcodeOf i := by
  constructor
  · intro h
    unfold decodeOpc at h
    split at h <;> cases h <;> exact BitVec.eq_of_toNat_eq ‹_›
  · rintro rfl
    obtain ⟨-, -, -, h⟩ := commandWord i
    exact h

/-- The decoder answers a command when RSV is zero and OPC selects it (R51). -/
theorem decode_eq_ok_iff_fields {w : Word} {i : Instr} :
    decode w = .ok i ↔ cwRsv w = 0 ∧ decodeOpc (cwOpc w) = some i := by
  unfold decode
  by_cases hrsv : cwRsv w = 0
  · rw [if_pos hrsv]
    cases decodeOpc (cwOpc w) <;> simp [hrsv]
  · rw [if_neg hrsv]
    exact iff_of_false nofun fun ⟨hzero, _⟩ => hrsv hzero

/-- A word is a command's when its fields are that command's (R49, R50). -/
theorem eq_encode_iff_fields {w : Word} {i : Instr} : w = encode i ↔ cwRsv w = 0 ∧ cwOpc w = opcodeOf i := by
  constructor
  · rintro rfl
    obtain ⟨-, hrsv, hopc, -⟩ := commandWord i
    exact ⟨hrsv, hopc⟩
  · rintro ⟨hrsv, hopc⟩
    rw [encode, ← hrsv, ← hopc, cwRsv_append_cwOpc]

theorem decode_eq_ok_iff {w : Word} {i : Instr} : decode w = .ok i ↔ w = encode i := by
  rw [decode_eq_ok_iff_fields, decodeOpc_eq_some_iff, eq_encode_iff_fields]

theorem decode_encode (i : Instr) : decode (encode i) = .ok i := decode_eq_ok_iff.2 rfl

/-! ### The opcode map -/

/-- The written-out words are those of the encoder. -/
theorem fst_eq_encode_of_mem_commandWords : ∀ p ∈ commandWords, p.1 = encode p.2 := by decide

theorem encode_mem_commandWords (i : Instr) : (encode i, i) ∈ commandWords := by cases i <;> decide

/-- The words that decode are the eleven of the opcode map (R50). -/
theorem exists_decode_eq_ok_iff (w : Word) : (∃ i, decode w = .ok i) ↔ ∃ p ∈ commandWords, p.1 = w := by
  constructor
  · rintro ⟨i, hd⟩
    exact ⟨(encode i, i), encode_mem_commandWords i, (decode_eq_ok_iff.1 hd).symm⟩
  · rintro ⟨p, hp, rfl⟩
    exact ⟨p.2, decode_eq_ok_iff.2 (fst_eq_encode_of_mem_commandWords p hp)⟩

/-- Settles O2: decoding to a command is being that command's word. -/
theorem decodeAndEncodeAgree : Obligations.DecodeAndEncodeAgree :=
  ⟨decode_encode, fun _ _ => decode_eq_ok_iff.1, exists_decode_eq_ok_iff⟩

/-- Settles O1: each word of the table is its command's encoding. -/
theorem commandTableDecodes : Obligations.CommandTableDecodes := fun p hp =>
  decode_eq_ok_iff.2 (fst_eq_encode_of_mem_commandWords p hp)

/-! ### A word that is no command -/

theorem exists_decode_eq_error {w : Word} (h : ∀ p ∈ commandWords, p.1 ≠ w) : ∃ e, decode w = .error e := by
  cases hd : decode w with
  | error e => exact ⟨e, rfl⟩
  | ok i =>
    obtain ⟨p, hp, hw⟩ := (exists_decode_eq_ok_iff w).1 ⟨i, hd⟩
    exact absurd hw (h p hp)

/-- Raising an error and then running the ending sequence is a hard error's whole end (R124, R126). -/
theorem endCommand_raiseError (e : ErrCode) (s : State) : endCommand (raiseError e s) = failed e s := rfl

/-- From DISPATCH an illegal word ends at once: one transition raises the error, the next ends the command (R51). -/
theorem runIllegal_atDispatch {s : State} (h : AtDispatch s) : runIllegal s = .next (failed .illegalCommand s) := by
  obtain ⟨hb, hst⟩ := h
  have hraise : illegalStep s = raiseError .illegalCommand s := by rw [illegalStep, hst]
  have hend : illegalStep (raiseError .illegalCommand s) = failed .illegalCommand s := endCommand_raiseError _ s
  have hb' : (raiseError .illegalCommand s).status.busy = true := hb
  rw [runIllegal, hb, hst, if_pos (by decide), runSteps_busy hb, hraise, runSteps_busy hb', hend, runSteps_idle rfl]

/-- The step after the CMD write of an illegal word, with nothing to come: the word's end, met after the collaborators' turn
(R35, R51). -/
theorem step_startCommand_illegal {s : State} {w : Word} {e : DecodeError} (hd : decode w = .error e)
    (hi : s.inbox = []) :
    step (startCommand w s) = .next (failed .illegalCommand (receive (startCommand w s))) := by
  have hrun : step (startCommand w s) = runCurrent (receive (startCommand w s)) := by simp [step, startCommand, hi]
  have hill : runCurrent (receive (startCommand w s)) = runIllegal (receive (startCommand w s)) := by
    simp only [runCurrent, receive_curCmd, startCommand, hd]
  rw [hrun, hill, runIllegal_atDispatch ⟨rfl, rfl⟩]

/-- In DISPATCH no request waits, so the collaborators' turn leaves all but `turn` and `silent` (R48). -/
theorem receive_atDispatch {s : State} (h : s.st = .dispatch) :
    receive s = { s with turn := s.turn + 1, silent := (Config.replies s.turn).silent } := by
  simp [receive, h]

/-- Settles O3: the CMD write starts the word, and the next step is its end in DISPATCH. -/
theorem illegalWordChangesNothingElse : Obligations.IllegalWordChangesNothingElse := by
  intro s w be hb hw hi
  obtain ⟨e, hd⟩ := exists_decode_eq_error hw
  have hstart : hostEvent (.write 0x010 w be) s = startCommand w s := by
    rw [hostEvent, busWrite_reg (r := .cmd) rfl, writeReg, hb, if_neg Bool.false_ne_true]
  refine ⟨hstart, _, step_startCommand_illegal hd hi, ?_⟩
  rw [receive_atDispatch rfl]
  rfl

end Sys2Proof.Proofs.Encoding
end

section
/-! Ring arithmetic and the norm (40_helpers.md R61 - R67): centring, the product modulo x^N + 1, and the Euclidean bound. -/

namespace Sys2Proof.Proofs.RingArithmetic

open Sys2Proof Sys2Proof.Machine Sys2Proof.Claims Sys2Proof.Proofs.KeyRanges

/-! ### Sums and coefficients -/

theorem sumTo_eq_sum (n : Nat) (f : Nat → Int) : sumTo n f = ∑ i ∈ Finset.range n, f i := rfl

theorem coef_vec_lt {n i : Nat} (f : Nat → Int) (h : i < n) : coef (vec n f) i = f i := by rw [coef_vec, if_pos h]

/-! ### Centring -/

/-- The centred representative lies in the symmetric range (R62). -/
theorem centerInt_mem {q : Nat} (hq : 1 ≤ q) (x : Int) :
    -(((q - 1) / 2 : Nat) : Int) ≤ centerInt q x ∧ centerInt q x ≤ ((q / 2 : Nat) : Int) := by
  have hq' : (0 : Int) < q := by omega
  have hnonneg := Int.emod_nonneg x hq'.ne'
  have hlt := Int.emod_lt_of_pos x hq'
  unfold centerInt
  split <;> omega

/-- Centring changes a value by a multiple of Q only (R62). -/
theorem centerInt_emod (q : Nat) (x : Int) : centerInt q x % q = x % q := by
  unfold centerInt
  split
  · rw [Int.sub_emod_right, Int.emod_emod]
  · rw [Int.emod_emod]

theorem centerInt_congr {q : Nat} {x y : Int} (h : x % q = y % q) : centerInt q x = centerInt q y := by
  rw [centerInt, h, centerInt]

theorem center_center (ps : ParamSet) (x : List Int) : center ps (center ps x) = center ps x := by
  refine vec_congr fun i hi => ?_
  rw [center, coef_vec_lt _ hi]
  exact centerInt_congr (centerInt_emod ..)

/-- What centring needs of a set's constraints (R7). -/
theorem modulus_of_wf {ps : ParamSet} {v : Variant} (h : ps.wf v = true) :
    1 ≤ ps.q ∧ ps.q / 2 < 2 ^ (ps.qBits - 1) := by
  simp only [ParamSet.wf, Bool.and_eq_true, decide_eq_true_eq] at h
  have hlt : ps.q < 2 ^ ps.qBits := by omega
  refine ⟨by omega, ?_⟩
  obtain hz | ⟨k, hk⟩ : ps.qBits = 0 ∨ ∃ k, ps.qBits = k + 1 := by cases ps.qBits <;> simp
  · rw [hz] at hlt ⊢
    omega
  · rw [hk, pow_succ] at hlt
    rw [hk, Nat.add_sub_cancel]
    omega

/-- Settles O41, coefficient by coefficient: the range of the representative, and Q < 2^Q_BITS (R7). -/
theorem centringIsSymmetricAndFits : Obligations.CentringIsSymmetricAndFits := by
  intro ps x v hwf i hi
  obtain ⟨hq, hhalf⟩ := modulus_of_wf hwf
  have hcoef : coef (center ps x) i = centerInt ps.q (coef x i) := coef_vec_lt _ hi
  obtain ⟨hlo, hhi⟩ := centerInt_mem hq (coef x i)
  have hpow : ((ps.q / 2 : Nat) : Int) < 2 ^ (ps.qBits - 1) := by exact_mod_cast hhalf
  rw [hcoef]
  refine ⟨rfl, hlo, hhi, centerInt_emod .., center_center .., ?_, ?_⟩ <;> omega

/-! ### The product modulo x^N + 1 -/

/-- Eliminating the top `t` coefficients by x^n = -1: each goes, negated, n places down (R64). -/
theorem coef_polyReduce_one {n t i : Nat} (ht : t ≤ n) (hi : i < n) (c : List Int) :
    coef (polyReduce n [1] t c) i = coef c i - if i < t then coef c (n + i) else 0 := by
  induction t generalizing c with
  | zero => simp [polyReduce]
  | succ t ih =>
    have hone (k : Nat) : coef [1] k = if k = 0 then 1 else 0 := by cases k <;> simp [coef]
    rw [polyReduce, ih (by omega), coef_vec_lt _ (by omega)]
    rcases Nat.lt_trichotomy i t with h | rfl | h
    · rw [coef_vec_lt _ (by omega)]
      simp [hone, show ¬t ≤ i by omega, show n + i - t ≠ 0 by omega, h, h.trans (Nat.lt_succ_self t)]
    · simp [hone]
    · simp [hone, show i - t ≠ 0 by omega, show ¬i < t by omega, show ¬i < t + 1 by omega]

/-- Coefficient i of the product, for i < n, less coefficient n + i, is the loop's sum: its terms with j ≤ i are those of
x^i, the others those of x^(n+i) (R64). -/
theorem coef_polyProduct_sub {n i : Nat} (hi : i < n) (a b : List Int) :
    coef (polyProduct n a b) i - (if i < n - 1 then coef (polyProduct n a b) (n + i) else 0) = negacyclicCoef n a b i := by
  have hhigh : (if i < n - 1 then coef (polyProduct n a b) (n + i) else 0)
      = sumTo n fun j => if j ≤ n + i ∧ n + i - j < n then coef a j * coef b (n + i - j) else 0 := by
    split
    · exact coef_vec_lt _ (by omega)
    · refine (List.sum_eq_zero fun x hx => ?_).symm
      obtain ⟨j, hj, rfl⟩ := List.mem_map.1 hx
      rw [List.mem_range] at hj
      exact if_neg (by omega)
  rw [hhigh, polyProduct, coef_vec_lt _ (by omega), sumTo_sub]
  refine sumTo_congr fun j hj => ?_
  by_cases h : j ≤ i
  · rw [if_pos ⟨h, by omega⟩, if_neg (by omega), if_pos h, sub_zero]
  · rw [if_neg (by omega), if_pos (by omega), if_neg h, zero_sub, Nat.add_comm n i]

/-- Settles O42: the general reduction takes from coefficient i the one n places above it, which is what the loop does. -/
theorem negacyclicLoopIsTheQuotientProduct : Obligations.NegacyclicLoopIsTheQuotientProduct := by
  intro ps a b
  refine ⟨vec_length .., fun i hi => coef_vec_lt _ hi, vec_congr fun i hi => ?_⟩
  rw [coef_polyReduce_one (Nat.sub_le ..) hi, coef_polyProduct_sub hi]

/-! ### The norm -/

theorem sqNorm_eq_sum (n : Nat) (u v : List Int) :
    sqNorm n u v = ∑ i ∈ Finset.range n, coef u i ^ 2 + ∑ i ∈ Finset.range n, coef v i ^ 2 := by
  simp only [sqNorm, sumTo_eq_sum, sq]

theorem sqNorm_nonneg (n : Nat) (u v : List Int) : 0 ≤ sqNorm n u v := by
  rw [sqNorm_eq_sum]
  positivity

theorem normOk_iff (ps : ParamSet) (u v : List Int) : normOk ps u v = true ↔ sqNorm ps.n u v < ps.bdSq :=
  decide_eq_true_iff

/-- An integer below ceil(bd^2) is one whose square root is below bd (R67). -/
theorem lt_ceil_sq_iff_sqrt_lt {x : Int} (hx : 0 ≤ x) {bd : ℝ} (hbd : 0 ≤ bd) :
    x < (⌈bd ^ 2⌉₊ : Int) ↔ Real.sqrt (x : ℝ) < bd := by
  obtain ⟨k, rfl⟩ := Int.eq_ofNat_of_zero_le hx
  rw [Int.cast_natCast, Real.sqrt_lt (Nat.cast_nonneg k) hbd, Nat.cast_lt, Nat.lt_ceil]

/-- The bound of a set that meets its constraints, as a real number (R6). -/
theorem bdSq_of_wf {ps : ParamSet} {v : Variant} (h : ps.wf v = true) :
    0 ≤ (ps.bd : ℝ) ∧ ps.bdSq = ⌈(ps.bd : ℝ) ^ 2⌉₊ := by
  simp only [ParamSet.wf, Bool.and_eq_true, decide_eq_true_eq] at h
  obtain ⟨⟨-, hbd⟩, hsq⟩ := h
  have hceil : ⌈(ps.bd : ℝ) ^ 2⌉ = (ps.bd * ps.bd).ceil := by
    rw [sq, ← Rat.cast_mul, Rat.ceil_cast]
    exact eq_of_forall_ge_iff fun z => Int.ceil_le.trans Rat.ceil_le_iff.symm
  exact ⟨by exact_mod_cast hbd, by rw [hsq, ← hceil, Int.ceil_toNat]⟩

theorem normOk_iff_sqrt_lt {ps : ParamSet} (u v : List Int) {bd : ℝ} (hbd : 0 ≤ bd) (h : ps.bdSq = ⌈bd ^ 2⌉₊) :
    normOk ps u v = true ↔ Real.sqrt ((sqNorm ps.n u v : Int) : ℝ) < bd := by
  rw [normOk_iff, h, lt_ceil_sq_iff_sqrt_lt (sqNorm_nonneg ..) hbd]

/-- Settles O43: SqNorm is an integer, so being below ceil(bd^2) is being below bd^2. -/
theorem normOkIsTheEuclideanBound : Obligations.NormOkIsTheEuclideanBound := by
  intro ps u v
  refine ⟨sqNorm_eq_sum .., normOk_iff .., fun bd => normOk_iff_sqrt_lt u v, fun var hwf => ?_⟩
  obtain ⟨hbd, hsq⟩ := bdSq_of_wf hwf
  exact normOk_iff_sqrt_lt u v hbd hsq

end Sys2Proof.Proofs.RingArithmetic
end

section
/-! Bit streams, fields and uncoded elements (40_helpers.md R69 - R73): the place of every bit, and what is read back. -/

namespace Sys2Proof.Proofs.BitStreams

open Sys2Proof Sys2Proof.Machine Sys2Proof.Claims Sys2Proof.Proofs.KeyRanges

theorem getD_map_range {α : Type} {n j : Nat} (f : Nat → α) (d : α) (h : j < n) : ((List.range n).map f).getD j d = f j := by
  simp [h]

/-! ### Bytes and stream bits -/

theorem streamPos_eq_bitPos (o : BitOrder) (j : Nat) : streamPos o j = bitPos o j := by cases o <;> rfl

theorem getD_bitsOf (o : BitOrder) (bytes : List Byte) (j : Nat) : (bitsOf o bytes).getD j false = streamBit o bytes j := by
  rw [bitsOf_get, streamBit, streamPos_eq_bitPos]

theorem streamBit_of_length_le {o : BitOrder} {bytes : List Byte} {j : Nat} (h : 8 * bytes.length ≤ j) :
    streamBit o bytes j = false := by
  rw [← getD_bitsOf]
  exact List.getD_eq_default _ _ (by simpa using h)

/-- Bit p of byte i is the stream bit at the inverse of pos in that byte (R69). -/
theorem getLsbD_eq_streamBit (o : BitOrder) (bytes : List Byte) {i p : Nat} (hp : p < 8) :
    (bytes.getD i 0).getLsbD p = streamBit o bytes (8 * i + bitPos o p) := by
  have hlt := bitPos_lt o p
  rw [streamBit, streamPos_eq_bitPos, bitPos_mod, bitPos_bitPos, Nat.mod_eq_of_lt hp,
    show (8 * i + bitPos o p) / 8 = i by omega]

/-- A byte string is determined by its length and its stream bits. -/
theorem eq_of_streamBit_eq (o : BitOrder) {x y : List Byte} (hlen : x.length = y.length)
    (h : ∀ j < 8 * x.length, streamBit o x j = streamBit o y j) : x = y := by
  refine List.ext_getElem hlen fun i hx hy => BitVec.eq_of_getLsbD_eq fun p hp => ?_
  rw [← List.getD_eq_getElem x 0 hx, ← List.getD_eq_getElem y 0 hy, getLsbD_eq_streamBit o x hp, getLsbD_eq_streamBit o y hp]
  have hlt := bitPos_lt o p
  exact h _ (by omega)

/-- The bytes of a bit string hold its bits in their places, and pad bits 0 (R69). -/
theorem streamBit_toBytes (o : BitOrder) (b : List Bool) (j : Nat) : streamBit o (toBytes o b) j = b.getD j false := by
  rw [streamBit, streamPos_eq_bitPos, toBytes_get]
  split
  · rw [byteOf_bit, bitPos_bitPos, Nat.div_add_mod]
    simp [bitPos_lt]
  · rename_i h
    rw [List.getD_eq_default _ _ (by rw [byteCount] at h; omega)]
    simp

theorem toBytes_bitsOf (o : BitOrder) (bytes : List Byte) : toBytes o (bitsOf o bytes) = bytes := by
  refine eq_of_streamBit_eq o ?_ fun j _ => ?_
  · rw [toBytes_length, bitsOf_length, byteCount]
    omega
  · rw [streamBit_toBytes, getD_bitsOf]

/-! ### Fields -/

theorem emitted_lt {o : BitOrder} {w j : Nat} (h : j < w) : emitted o w j < w := by
  unfold emitted
  split <;> omega

theorem emitted_emitted {o : BitOrder} {w j : Nat} (h : j < w) : emitted o w (emitted o w j) = j := by
  unfold emitted
  split <;> omega

theorem getD_fieldBits (o : BitOrder) {w j : Nat} (u : Nat) (h : j < w) :
    (fieldBits o w u).getD j false = u.testBit (emitted o w j) := by
  cases o <;> exact getD_map_range _ _ h

theorem testBit_readField (o : BitOrder) {w j : Nat} (b : List Bool) (p : Nat) (h : j < w) :
    (readField o w b p).testBit (emitted o w j) = b.getD (p + j) false := by
  rw [readField, fieldValue_bit]
  cases o
  case msbFirst =>
    have hj : w - 1 - (w - 1 - j) = j := by omega
    simp [emitted, show w - 1 - j < w by omega, hj]
  case lsbFirst => exact getD_map_range _ _ h

/-- The field read at p is the pattern whose emission stands there (R70). -/
theorem readField_eq {o : BitOrder} {w u : Nat} {b : List Bool} {p : Nat} (hu : u < 2 ^ w)
    (h : ∀ j < w, b.getD (p + j) false = u.testBit (emitted o w j)) : readField o w b p = u := by
  refine Nat.eq_of_testBit_eq fun i => ?_
  by_cases hi : i < w
  · rw [← emitted_emitted (o := o) hi, testBit_readField o b p (emitted_lt hi), h _ (emitted_lt hi)]
  · have hpow : 2 ^ w ≤ 2 ^ i := Nat.pow_le_pow_right (by decide) (by omega)
    rw [Nat.testBit_lt_two_pow ((readField_lt o w b p).trans_le hpow), Nat.testBit_lt_two_pow (hu.trans_le hpow)]

/-- A field written anywhere in a stream is read back (R70). -/
theorem readField_append {o : BitOrder} {w u : Nat} (pre post : List Bool) (hu : u < 2 ^ w) :
    readField o w (pre ++ fieldBits o w u ++ post) pre.length = u := by
  refine readField_eq hu fun j hj => ?_
  rw [List.append_assoc, List.getD_append_right _ _ _ _ (Nat.le_add_right ..), Nat.add_sub_cancel_left,
    List.getD_append _ _ _ _ (by simpa using hj), getD_fieldBits o u hj]

theorem valueOf_eq (signed : Bool) (w u : Nat) :
    valueOf signed w u = if signed = true ∧ 2 ^ w ≤ 2 * u then (u : Int) - 2 ^ w else (u : Int) := by
  cases signed
  case false => simp [valueOf]
  case true =>
    rw [valueOf, if_pos rfl, signExtend]
    split <;> simp <;> omega

/-! ### Uncoded elements -/

/-- The values of uncoded elements of a schema whose fields begin at stream position `p` (R73). -/
def elementsAt (o : BitOrder) (n : Nat) (b : List Bool) : List ElemDesc → Nat → List (List Int)
  | [], _ => []
  | e :: r, p =>
    (vec n fun i => valueOf e.signed e.w (readField o e.w b (p + i * e.w))) :: elementsAt o n b r (p + n * e.w)

theorem elementsAt_length (o : BitOrder) (n : Nat) (b : List Bool) (schema : List ElemDesc) (p : Nat) :
    (elementsAt o n b schema p).length = schema.length := by
  induction schema generalizing p with
  | nil => rfl
  | cons e r ih => rw [elementsAt, List.length_cons, ih, List.length_cons]

/-- Element k begins after the fields of the k elements before it. -/
theorem elementsAt_getElem? {o : BitOrder} {n : Nat} {b : List Bool} {schema : List ElemDesc} {p k : Nat} {e : ElemDesc}
    (he : schema[k]? = some e) :
    (elementsAt o n b schema p)[k]? = some (vec n fun i => valueOf e.signed e.w
      (readField o e.w b (p + n * ((schema.take k).map ElemDesc.w).sum + i * e.w))) := by
  induction schema generalizing p k with
  | nil => simp at he
  | cons d r ih =>
    cases k with
    | zero =>
      obtain rfl : d = e := by simpa using he
      simp [elementsAt]
    | succ k =>
      rw [elementsAt, List.getElem?_cons_succ, ih (by simpa using he)]
      simp [Nat.mul_add, Nat.add_assoc]

/-- Uncoded elements decode exactly when all their fields lie in the stream (R73). -/
theorem decodeElems_uncoded {C : Collab} {o : BitOrder} {n : Nat} {b : List Bool} {schema : List ElemDesc} {p : Nat}
    (hs : ∀ e ∈ schema, e.coding = .none) (hp : p ≤ b.length) :
    decodeElems C o n b schema p = if p + n * (schema.map ElemDesc.w).sum ≤ b.length
      then some (elementsAt o n b schema p, p + n * (schema.map ElemDesc.w).sum) else none := by
  induction schema generalizing p with
  | nil => simp [decodeElems, elementsAt, hp]
  | cons e r ih =>
    obtain ⟨he, hr⟩ := List.forall_mem_cons.1 hs
    have hsum : p + n * ((e :: r).map ElemDesc.w).sum = p + n * e.w + n * (r.map ElemDesc.w).sum := by
      simp [Nat.mul_add, Nat.add_assoc]
    simp only [decodeElems, decodeElem, he, hsum]
    by_cases h : p + n * e.w > b.length
    · rw [if_pos h, if_neg (by omega)]
    · rw [if_neg h]
      simp only [ih hr (Nat.not_lt.1 h)]
      by_cases hlen : p + n * e.w + n * (r.map ElemDesc.w).sum ≤ b.length
      · simp only [if_pos hlen, elementsAt]
      · simp only [if_neg hlen]

/-- The pad bits are 0, bit by bit (R73). -/
theorem all_drop_not_iff (b : List Bool) (p : Nat) :
    (b.drop p).all (fun x => !x) = true ↔ ∀ j, p ≤ j → j < b.length → b.getD j false = false := by
  simp only [List.all_eq_true, Bool.not_eq_true']
  constructor
  · intro h j hpj hj
    rw [List.getD_eq_getElem _ _ hj]
    exact h _ (List.mem_drop_iff_getElem.2 ⟨j - p, by omega, by simp [Nat.add_sub_cancel' hpj]⟩)
  · intro h x hx
    obtain ⟨i, hi, rfl⟩ := List.mem_drop_iff_getElem.1 hx
    rw [← List.getD_eq_getElem _ false]
    exact h _ (Nat.le_add_right ..) (by omega)

/-- Unpack of uncoded elements: strict about its length and its pad bits (R73). -/
theorem unpack_uncoded {C : Collab} {o : BitOrder} {n : Nat} {bytes : List Byte} {schema : List ElemDesc}
    {vs : List (List Int)} (hs : ∀ e ∈ schema, e.coding = .none) :
    unpack C o n bytes schema = some vs ↔
      (bytes.length = (n * (schema.map ElemDesc.w).sum + 7) / 8
        ∧ ∀ j, n * (schema.map ElemDesc.w).sum ≤ j → j < 8 * bytes.length → (bitsOf o bytes).getD j false = false)
      ∧ elementsAt o n (bitsOf o bytes) schema 0 = vs := by
  rw [unpack, decodeElems_uncoded hs (Nat.zero_le _), Nat.zero_add, bitsOf_length]
  by_cases h : n * (schema.map ElemDesc.w).sum ≤ 8 * bytes.length
  · simp only [if_pos h, byteCount, all_drop_not_iff, bitsOf_length, Option.ite_none_right_eq_some, Option.some.injEq,
      eq_comm (a := bytes.length)]
  · have hlen : bytes.length ≠ (n * (schema.map ElemDesc.w).sum + 7) / 8 := by omega
    simp [if_neg h, hlen]

/-- Settles O44: each place is that of its bit, and what is read back follows bit by bit. -/
theorem bitStreamsReadBack : Obligations.BitStreamsReadBack := by
  intro o w u pre post bytes
  refine ⟨bitsOf_length .., fun j _ => getD_bitsOf .., toBytes_length .., fun j _ => streamBit_toBytes .., fieldBits_length ..,
    fun j => getD_fieldBits o u, fun p => ⟨readField_lt .., fun j => testBit_readField o pre p⟩, toBytes_bitsOf .., ?_,
    readField_append pre post, fun x hw hlo hhi => ⟨patternOf_lt .., signExtend_patternOf hw hlo hhi⟩,
    fun C n schema hs => ⟨?_, ?_⟩⟩
  · intro j hj
    rw [getD_bitsOf, streamBit_toBytes, List.getD_eq_default _ _ hj]
  · simp [Option.isSome_iff_exists, unpack_uncoded hs]
  · intro vs hvs
    obtain ⟨-, rfl⟩ := (unpack_uncoded hs).1 hvs
    refine ⟨elementsAt_length .., fun k e v he hv => ?_⟩
    rw [elementsAt_getElem? he, Option.some.injEq] at hv
    subst hv
    refine ⟨vec_length .., fun i hi => ?_⟩
    rw [coef_vec, if_pos hi, valueOf_eq, Nat.zero_add]

end Sys2Proof.Proofs.BitStreams
end

section
/-! Message recovery (40_helpers.md R76, R77, R81, R82): the bits of m1, m2 and the merged message, each in its place. -/

namespace Sys2Proof.Proofs.Recovery

open Sys2Proof Sys2Proof.Machine Sys2Proof.Claims Sys2Proof.Proofs.KeyRanges Sys2Proof.Proofs.BitStreams

theorem coef_m1Of (o : BitOrder) (ps : ParamSet) (msg : List Byte) {i : Nat} (hi : i < ps.n - ps.k) :
    coef (m1Of o ps msg) i = (readField o ps.w (bitsOf o msg) (i * ps.w) : Int) := by
  rw [m1Of, coef_vec, if_pos hi]

/-- Field i of m1 holds the message's bits from stream bit i·W on (R76). -/
theorem testBit_m1Of (o : BitOrder) (ps : ParamSet) (msg : List Byte) {i j : Nat} (hi : i < ps.n - ps.k) (hj : j < ps.w) :
    (coef (m1Of o ps msg) i).toNat.testBit (emitted o ps.w j) = streamBit o msg (i * ps.w + j) := by
  rw [coef_m1Of o ps msg hi, Int.toNat_natCast, testBit_readField o _ _ hj, getD_bitsOf]

/-- m1 holds unsigned W-bit values (R76). -/
theorem m1Of_mem (o : BitOrder) (ps : ParamSet) (msg : List Byte) {i : Nat} (hi : i < ps.n - ps.k) :
    0 ≤ coef (m1Of o ps msg) i ∧ coef (m1Of o ps msg) i < 2 ^ ps.w := by
  rw [coef_m1Of o ps msg hi]
  exact ⟨Int.natCast_nonneg _, by exact_mod_cast readField_lt ..⟩

/-- m2 is the message's stream from bit L1 on (R77). -/
theorem streamBit_compact (o : BitOrder) (ps : ParamSet) (msg : List Byte) (j : Nat) :
    streamBit o (compact o ps msg) j = streamBit o msg (ps.l1 .recovery + j) := by
  unfold compact
  split
  · rw [streamBit_of_length_le (bytes := []) (Nat.zero_le j), streamBit_of_length_le (by omega)]
  · rw [streamBit_toBytes, ← getD_bitsOf]
    simp

/-- The first L1 stream bits of a merged message are those of m1's fields, the others m2's (R81). -/
theorem streamBit_merge (o : BitOrder) (ps : ParamSet) (m1 : List Int) (m2 : List Byte) {j : Nat}
    (hj : j < 8 * (a1Of ps + m2.length)) :
    streamBit o (merge o ps m1 m2) j = if j < ps.l1 .recovery
      then (coef m1 (j / ps.w) % 2 ^ ps.w).toNat.testBit (emitted o ps.w (j % ps.w))
      else streamBit o m2 (j - ps.l1 .recovery) := by
  rw [merge, streamBit_toBytes, getD_map_range _ _ hj]
  split
  · rename_i h
    have hw : 0 < ps.w := Nat.pos_of_mul_pos_left (Nat.zero_lt_of_lt h)
    rw [flatMap_get _ ps.w _ (fun _ => fieldBits_length ..) j h, getD_fieldBits o _ (Nat.mod_lt _ hw), patternOf]
  · exact getD_bitsOf ..

/-- Zero bytes after a byte string change no stream bit. -/
theorem streamBit_append_zeros (o : BitOrder) (bytes : List Byte) (k j : Nat) :
    streamBit o (bytes ++ List.replicate k 0) j = streamBit o bytes j := by
  have hbyte (i : Nat) : (bytes ++ List.replicate k 0).getD i 0 = bytes.getD i 0 := by
    by_cases h : i < bytes.length
    · exact List.getD_append _ _ _ _ h
    · rw [List.getD_append_right _ _ _ _ (by omega), List.getD_eq_default bytes _ (by omega)]
      simp only [List.getD_eq_getElem?_getD, List.getElem?_replicate]
      split <;> rfl
  rw [streamBit, streamBit, hbyte]

/-- Merging m1 and m2 of a message gives each of its bits back (R82). -/
theorem streamBit_merge_compact (o : BitOrder) (ps : ParamSet) (msg : List Byte) {j : Nat}
    (hj : j < 8 * (a1Of ps + (compact o ps msg).length)) :
    streamBit o (merge o ps (m1Of o ps msg) (compact o ps msg)) j = streamBit o msg j := by
  rw [streamBit_merge o ps _ _ hj]
  split
  · rename_i h
    have hi : j / ps.w < ps.n - ps.k := Nat.div_lt_of_lt_mul (by rwa [Nat.mul_comm])
    have hw : 0 < ps.w := Nat.pos_of_mul_pos_left (Nat.zero_lt_of_lt h)
    obtain ⟨hlo, hhi⟩ := m1Of_mem o ps msg hi
    rw [Int.emod_eq_of_lt hlo hhi, testBit_m1Of o ps msg hi (Nat.mod_lt _ hw), Nat.mul_comm, Nat.div_add_mod]
  · rw [streamBit_compact, Nat.add_sub_cancel' (by omega)]

theorem merge_compact (o : BitOrder) (ps : ParamSet) (msg : List Byte) :
    merge o ps (m1Of o ps msg) (compact o ps msg) = msg ++ List.replicate (a1Of ps - msg.length) 0 := by
  refine eq_of_streamBit_eq o ?_ fun j hj => ?_
  · rw [merge_length, compact_length, List.length_append, List.length_replicate]
    omega
  · rw [merge_length] at hj
    rw [streamBit_merge_compact o ps msg hj, streamBit_append_zeros]

/-- Settles O45: the bits of m1, m2 and the merged message, and a byte string is its stream bits. -/
theorem mergeUndoesCompact : Obligations.MergeUndoesCompact := by
  intro o ps msg m2 m1
  have hlength := compact_length o ps msg
  refine ⟨⟨vec_length .., fun i hi => ?_⟩, ⟨?_, fun _ => hlength, fun j _ => streamBit_compact ..⟩,
    ⟨merge_length .., fun j hj => streamBit_merge o ps m1 m2 hj⟩, merge_compact ..⟩
  · obtain ⟨hlo, hhi⟩ := m1Of_mem o ps msg hi
    exact ⟨hlo, hhi, fun j hj => testBit_m1Of o ps msg hi hj⟩
  · have ha1 : a1Of ps = (ps.n - ps.k) * (ps.qBits - 1) / 8 := rfl
    rw [hlength, ha1]
    split <;> omega

end Sys2Proof.Proofs.Recovery
end

section
/-! CONFIGURE and DESTROY from DISPATCH to their end, and the validation of CFG0 and CFG1 (41_configure.md R83 - R85;
30_encoding.md R52 - R54). -/

namespace Sys2Proof.Proofs.Configure

open Sys2Proof Sys2Proof.Machine Sys2Proof.Claims Sys2Proof.Proofs.Transitions Sys2Proof.Proofs.Running

/-! ### A command from DISPATCH to its end, move by move -/

variable {i : Instr} {s : State}

/-- A state that calls no collaborator is left by its transition (R34, R48). -/
theorem advance_of_no_call (hp : onPath i s = true) (hc : callsCollaborator Config.collab i s = false) :
    advance i s = .next (transition Config.collab i s) := by
  rw [advance, if_pos hp, whenAnswered_of_no_call hc]

/-- A transition after which its command still runs leaves the command's end as it is (R36). -/
theorem exec_transition (hp : onPath i s = true) (hc : callsCollaborator Config.collab i s = false)
    (hb : (transition Config.collab i s).status.busy = true) : exec i s = exec i (transition Config.collab i s) :=
  ((cuttingACommandKeepsItsEnd i s _ (advance_of_no_call hp hc)).1 hb).symm

/-- In FINISH a command ends with the ending sequence; DESTROY also clears CUR_CMD (R85, R124). -/
theorem exec_finish (hb : s.status.busy = true) (hst : s.st = .finish) :
    exec i s = .next { endCommand s with curCmd := if i = .destroy then 0 else s.curCmd } := by
  have hc : callsCollaborator Config.collab i s = false := by simp [callsCollaborator, hst]
  have hend := transition_finish Config.collab i hst
  rw [← hend]
  exact (cuttingACommandKeepsItsEnd i s _ (advance_of_no_call (onPath_finish hb hst) hc)).2 (by rw [hend]; rfl)

/-- A transition into FINISH and then the ending sequence are a command's end (R124). -/
theorem exec_of_transition_finish {t : State} (hp : onPath i s = true)
    (hc : callsCollaborator Config.collab i s = false) (hmove : transition Config.collab i s = t)
    (hb : t.status.busy = true) (hst : t.st = .finish) :
    exec i s = .next { endCommand t with curCmd := if i = .destroy then 0 else t.curCmd } := by
  subst hmove
  rw [exec_transition hp hc hb, exec_finish hb hst]

theorem transition_atDispatch (C : Collab) (i : Instr) (hst : s.st = .dispatch) :
    transition C i s = dispatchStep i (firstState i) s := by
  cases i <;> simp only [transition, configureStep, destroyStep, keygenStep, loadSkStep, loadPkStep, storeSkStep,
    storePkStep, signStep, signRecStep, verifyStep, verifyRecStep, hst, firstState]

theorem dispatch_no_call (C : Collab) (i : Instr) (hst : s.st = .dispatch) : callsCollaborator C i s = false := by
  simp [callsCollaborator, hst]

/-- A command whose checks all pass goes on in the first state of its rule (R35, R122). -/
theorem exec_atDispatch_ok (h : AtDispatch s) (hok : dispatchError i s = none) :
    exec i s = exec i { s with st := firstState i } := by
  obtain ⟨hb, hst⟩ := h
  have hmove : transition Config.collab i s = { s with st := firstState i } := by
    rw [transition_atDispatch _ _ hst, dispatchStep_ok hok]
  rw [exec_transition (onPath_dispatch hb hst) (dispatch_no_call _ _ hst) (by rw [hmove]; exact hb), hmove]

/-- A command one of whose checks fails ends with its code (R122, R126). -/
theorem exec_atDispatch_error (h : AtDispatch s) {e : ErrCode} (he : dispatchError i s = some e) :
    exec i s = .next (failed e s) := by
  obtain ⟨hb, hst⟩ := h
  have hmove : transition Config.collab i s = raiseError e s := by
    rw [transition_atDispatch _ _ hst, dispatchStep_error he]
  have hi : i ≠ .destroy := by
    rintro rfl
    cases he
  rw [exec_of_transition_finish (onPath_dispatch hb hst) (dispatch_no_call _ _ hst) hmove hb rfl, if_neg hi]
  rfl

/-! ### CONFIGURE and DESTROY -/

/-- In CF_VALIDATE a configuration that passes is latched, and any other ends with its code (R83). -/
theorem exec_configure_cfValidate (hb : s.status.busy = true) :
    exec .configure { s with st := .cfValidate } = .next (
      match cfgValidate s.build s.cfg0 s.cfg1 with
      | .error e => failed e s
      | .ok a => ended (latchConfig a s)) := by
  have hp : onPath .configure { s with st := .cfValidate } = true := by simp [onPath, commandPath, hb]
  cases hv : cfgValidate s.build s.cfg0 s.cfg1 with
  | error e =>
    have hmove : transition Config.collab .configure { s with st := .cfValidate } = raiseError e s := by
      simp only [transition, configureStep, cfValidateStep, hv]
      rfl
    exact exec_of_transition_finish hp rfl hmove hb rfl
  | ok a =>
    have hmove : transition Config.collab .configure { s with st := .cfValidate } = finishOk (latchConfig a s) := by
      simp only [transition, configureStep, cfValidateStep, hv]
      rfl
    exact exec_of_transition_finish hp rfl hmove hb rfl

/-- Settles O21: DISPATCH refuses a configured block, and CF_VALIDATE decides for any other. -/
theorem configureLatchesOrRefuses : Obligations.ConfigureLatchesOrRefuses := by
  intro s h
  by_cases hc : s.status.configured = true
  · have he : dispatchError .configure s = some .illegalCommand := if_pos hc
    rw [if_pos hc, exec_atDispatch_error h he]
  · have hok : dispatchError .configure s = none := if_neg hc
    rw [if_neg hc, exec_atDispatch_ok h hok]
    exact exec_configure_cfValidate h.1

/-- Settles O23: CF_TEARDOWN zeroes all but what the ending sequence sets, and the ending sequence clears CUR_CMD. -/
theorem destroyReachesTheResetState : Obligations.DestroyReachesTheResetState := by
  intro s h herr hacc hrej hcode
  have hp : onPath .destroy { s with st := .cfTeardown } = true := by simp [onPath, commandPath, h.1]
  have hmove : transition Config.collab .destroy { s with st := .cfTeardown } = finishOk (tearDown s) := rfl
  have hstatus : { (tearDown s).status with busy := false, done := true } = { Status.zero with
      done := true, overrun := s.status.overrun, busErr := s.status.busErr, lastOp := s.status.lastOp } := by
    simp [tearDown, Status.zero, herr, hacc, hrej, hcode]
  rw [exec_atDispatch_ok h rfl, firstState, exec_of_transition_finish hp rfl hmove h.1 rfl, ← hstatus]
  rfl

/-! ### The validation of CFG0 and CFG1 -/

variable (b : Build) (v w : Word)

theorem cfgField_eq_bitsAt (lo len : Nat) : cfgField v lo len = bitsAt v lo len := by
  rw [cfgField, bitsAt, BitVec.extractLsb'_toNat, Nat.shiftRight_eq_div_pow]

theorem getLsbD_eq_bitsAt (k : Nat) : v.getLsbD k = decide (bitsAt v k 1 = 1) := by
  rw [← BitVec.testBit_toNat, Nat.testBit_eq_decide_div_mod_eq, bitsAt, Nat.pow_one]

theorem variantOf_eq_bitsAt : variantOf v = if bitsAt v 4 1 = 1 then .recovery else .plain := by
  simp only [variantOf, getLsbD_eq_bitsAt, decide_eq_true_eq]

/-- Bit 0 of a PSET that is in bounds is PSET itself (R52). -/
theorem psetOf_eq_bitsAt (h : ¬1 < bitsAt v 0 4) : psetOf v = if bitsAt v 0 4 = 1 then 1 else 0 := by
  have hbit : bitsAt v 0 1 = 1 ↔ bitsAt v 0 4 = 1 := by
    unfold bitsAt at h ⊢
    omega
  simp only [psetOf, getLsbD_eq_bitsAt, decide_eq_true_eq, hbit]

theorem reductionOf_eq_getD : ∀ x, reductionOf x = [Reduction.ref, .barrett, .fp, .hw].getD x .hw
  | 0 | 1 | 2 | 3 | _ + 4 => rfl

theorem gsoPrecOf_eq_getD : ∀ x, gsoPrecOf x = [GsoPrec.g0, .g1, .g2].getD x .g2
  | 0 | 1 | 2 | _ + 3 => rfl

/-- The storage check fails where one of the four capacities is too small; bit 4 of CFG0 counts the signature's elements
(R84). -/
theorem storageFits_eq_false_iff (ps : ParamSet) :
    storageFits b (variantOf v) ps = false ↔
      b.nMax < ps.n ∨ b.pkCap < (ps.n * ps.qBits + 7) / 8
        ∨ b.sigCap < ((1 + bitsAt v 4 1) * ps.n * ps.qBits + 7) / 8
        ∨ b.skCap < (2 * ps.n * ps.fgBits + 2 * ps.n * ps.fguBits + 7) / 8 := by
  have hbit : bitsAt v 4 1 = 0 ∨ bitsAt v 4 1 = 1 := Nat.mod_two_eq_zero_or_one _
  rcases hbit with h | h <;> rw [variantOf_eq_bitsAt, h]
  all_goals
    simp only [storageFits, reduceIte, zero_ne_one, Bool.and_eq_false_iff, decide_eq_false_iff_not, not_le, or_assoc]
    rfl

theorem cfgCompat_eq_false_iff (a : Acfg) : b.cfgCompat a = false ↔ a ∈ b.incompat := by
  simp [Build.cfgCompat]

/-- Settles O22: the first check leaves only words whose PSET is its bit 0; on them the model reads the rule's bit fields, and
makes the rule's checks in its order. -/
theorem cfgValidateFollowsTheTable : Obligations.CfgValidateFollowsTheTable := by
  intro b v w var ps elems acfg
  unfold cfgValidate
  simp only [cfgField_eq_bitsAt]
  by_cases hpset : 1 < bitsAt v 0 4
  · rw [if_pos hpset, if_pos hpset]
  have hps : b.pset (variantOf v) (psetOf v) = ps := by
    rw [variantOf_eq_bitsAt, psetOf_eq_bitsAt v hpset]
  have himpl : v.extractLsb' 13 3 = BitVec.ofNat 3 (bitsAt v 13 3) := by
    rw [← cfgField_eq_bitsAt, cfgField, BitVec.ofNat_toNat, BitVec.setWidth_eq]
  have hacfg : acfgOf b v w = acfg := by
    simp only [acfgOf, himpl, variantOf_eq_bitsAt, psetOf_eq_bitsAt v hpset, getLsbD_eq_bitsAt, cfgField_eq_bitsAt,
      reductionOf_eq_getD, gsoPrecOf_eq_getD, decide_eq_true_eq]
    rfl
  rw [if_neg hpset, if_neg hpset, hps, hacfg]
  iterate 6 refine if_congr Iff.rfl rfl ?_
  exact if_congr (storageFits_eq_false_iff b v ps) rfl (if_congr (cfgCompat_eq_false_iff b acfg) rfl rfl)

end Sys2Proof.Proofs.Configure
end

section
/-! The register frame (41_configure.md R83 to 46_verify.md R115): the relation `Frame`, which updates keep it for which
commands, and so every transition and every run. -/

namespace Sys2Proof.Proofs.Frames

open Sys2Proof Sys2Proof.Machine Sys2Proof.Claims Sys2Proof.Proofs.Transitions

/-- Command `i` has brought `s` to `t` and left alone what its rule does not name as written. The copy of the registers that
a running command shows goes with its end (log 2). -/
structure Frame (i : Instr) (s t : State) : Prop where
  build : t.build = s.build
  ie : t.ie = s.ie
  inbox : t.inbox = s.inbox
  rdata : t.rdata = s.rdata
  silent : t.silent = s.silent
  turn : t.turn = s.turn
  shown : t.status.busy = true → t.shown = s.shown
  overrun : t.status.overrun = s.status.overrun
  busErr : t.status.busErr = s.status.busErr
  lastOp : t.status.lastOp = s.status.lastOp
  words : i ≠ .destroy → t.cfg0 = s.cfg0 ∧ t.cfg1 = s.cfg1 ∧ t.curCmd = s.curCmd
  config : i ∉ [.destroy, .configure] → t.acfg = s.acfg ∧ t.status.configured = s.status.configured
  lengths : i ≠ .destroy → ∀ win ∉ writtenWindows i, windowLen t win = windowLen s win
  attempts : i ∉ [.destroy, .configure, .keygen] → t.kgAttempts = s.kgAttempts
  verdict : i ∉ [.destroy, .configure, .verify, .verifyRec] →
    t.verifiedCnt = s.verifiedCnt ∧ t.unverifiedCnt = s.unverifiedCnt ∧ t.status.accept = s.status.accept
      ∧ t.status.reject = s.status.reject
  secKey : i ∉ [.destroy, .keygen, .loadSk] → t.sk = s.sk ∧ t.basis = s.basis
  secKeyValid : i ∉ [.destroy, .configure, .keygen, .loadSk] →
    t.status.skValid = s.status.skValid ∧ t.status.basisValid = s.status.basisValid
  pubKey : i ∉ [.destroy, .keygen, .loadPk] → t.pk = s.pk ∧ t.pkNtt = s.pkNtt
  pubKeyValid : i ∉ [.destroy, .configure, .keygen, .loadPk] → t.status.pkValid = s.status.pkValid
  generator : i ≠ .keygen → t.genPort = s.genPort
  sampler : i ∉ [.keygen, .sign, .signRec] → t.sampPort = s.sampPort

namespace Frame

variable {i : Instr} {s t : State}

theorem refl (i : Instr) (s : State) : Frame i s s := by
  constructor <;> intros <;> trivial

/-! ### What any command may do -/

theorem enter (h : Frame i s t) (f : Fsm) : Frame i s { t with st := f } := { h with }
theorem finishOk (h : Frame i s t) : Frame i s (Machine.finishOk t) := { h with }
theorem raiseError (h : Frame i s t) (e : ErrCode) : Frame i s (Machine.raiseError e t) := { h with }
theorem put (h : Frame i s t) (slot : Slot) (v : List Int) : Frame i s (scratchPut slot v t) := { h with }
theorem scrub (h : Frame i s t) : Frame i s { t with scratch := Scratch.zero t.build } := { h with }
theorem hold (h : Frame i s t) (b : Basis) : Frame i s { t with tbasis := b } := { h with }

theorem getBasis (h : Frame i s t) (C : Collab) : Frame i s (getBasis C t) := by
  unfold Machine.getBasis
  split
  · exact h
  · exact h.hold _

theorem releaseBasis (h : Frame i s t) : Frame i s (releaseBasis t) := by
  unfold Machine.releaseBasis
  split
  · exact h
  · exact h.hold _

theorem dispatchStep (h : Frame i s t) (first : Fsm) : Frame i s (dispatchStep i first t) := by
  unfold Machine.dispatchStep
  split
  · exact h.raiseError _
  · exact h.enter _

/-- The ending sequence (R124). -/
theorem endCommand (h : Frame i s t) : Frame i s (endCommand t) := { h with shown := nofun }

/-! ### What some commands may do -/

/-- A store into a window of the command (R145, R147). -/
theorem store (h : Frame i s t) {win : Window} (hw : win ∈ writtenWindows i) (bytes : List Byte) :
    Frame i s (windowStore win bytes t) := by
  have hlen : i ≠ .destroy → ∀ w ∉ writtenWindows i, windowLen (windowStore win bytes t) w = windowLen s w :=
    fun hi w hn => (windowLen_windowStore_ne (ne_of_mem_of_not_mem hw hn).symm _ _).trans (h.lengths hi w hn)
  cases win <;> exact { h with lengths := hlen }

theorem draw (h : Frame i s t) (hi : i ∈ [.keygen, .sign, .signRec]) (r : List SampleDraw) :
    Frame i s { t with sampPort := r } := { h with sampler := absurd hi }

theorem drawInto (h : Frame i s t) (hi : i ∈ [.keygen, .sign, .signRec]) (r : List SampleDraw) (f : Fsm) :
    Frame i s { t with sampPort := r, st := f } := { h with sampler := absurd hi }

theorem accept (h : Frame i s t) (hi : i ∈ [.destroy, .configure, .verify, .verifyRec]) : Frame i s (accept t) :=
  { h with verdict := absurd hi }

theorem reject (h : Frame i s t) (hi : i ∈ [.destroy, .configure, .verify, .verifyRec]) : Frame i s (reject t) :=
  { h with verdict := absurd hi }

/-! ### CONFIGURE and DESTROY -/

theorem configureStep (h : Frame .configure s t) : Frame .configure s (configureStep t) := by
  have latch (a : Acfg) : Frame .configure s (latchConfig a t) :=
    { h with
      config := absurd (by decide), attempts := absurd (by decide), verdict := absurd (by decide)
      secKeyValid := absurd (by decide), pubKeyValid := absurd (by decide) }
  unfold Machine.configureStep cfValidateStep
  split
  · exact h.dispatchStep _
  · split
    · exact h.raiseError _
    · exact (latch _).finishOk
  · exact h.endCommand
  · exact h

theorem destroyStep (h : Frame .destroy s t) : Frame .destroy s (destroyStep t) := by
  unfold Machine.destroyStep
  split
  · exact h.dispatchStep _
  · exact
      { h with
        words := absurd rfl, lengths := absurd rfl, config := absurd (by decide), attempts := absurd (by decide)
        verdict := absurd (by decide), secKey := absurd (by decide), secKeyValid := absurd (by decide)
        pubKey := absurd (by decide), pubKeyValid := absurd (by decide) }
  · exact { h.endCommand with words := absurd rfl }
  · exact h

/-! ### KEYGEN -/

theorem kgGenerateStep (h : Frame .keygen s t) : Frame .keygen s (kgGenerateStep t) := by
  unfold Machine.kgGenerateStep
  split
  · exact h
  · exact { h with generator := absurd rfl }
  · exact { h with generator := absurd rfl, attempts := absurd (by decide), secKeyValid := absurd (by decide) }

theorem kgBasisStep (h : Frame .keygen s t) (C : Collab) : Frame .keygen s (kgBasisStep C t) := by
  have hold (b : Basis) : Frame .keygen s (holdBasis b t) := by
    unfold holdBasis
    split
    · exact { h with secKey := absurd (by decide) }
    · exact h.hold _
  exact ((hold _).enter _).put _ _

theorem kgSampleStep (h : Frame .keygen s t) : Frame .keygen s (kgSampleStep t) := by
  unfold Machine.kgSampleStep
  split
  · exact h
  · exact (h.draw (by decide) _).releaseBasis.scrub.enter _
  · exact ((h.drawInto (by decide) _ _).put _ _).releaseBasis

theorem kgTestStep (h : Frame .keygen s t) (C : Collab) : Frame .keygen s (kgTestStep C t) := by
  unfold Machine.kgTestStep
  split
  · exact h.enter _
  · exact h.scrub.enter _

theorem kgCommitStep (h : Frame .keygen s t) (C : Collab) : Frame .keygen s (kgCommitStep C t) :=
  { h with
    secKey := absurd (by decide), secKeyValid := absurd (by decide), pubKey := absurd (by decide)
    pubKeyValid := absurd (by decide) }

theorem keygenStep (h : Frame .keygen s t) (C : Collab) : Frame .keygen s (keygenStep C t) := by
  unfold Machine.keygenStep
  split
  · exact h.dispatchStep _
  · exact h.kgGenerateStep
  · exact h.kgBasisStep C
  · exact h.kgSampleStep
  · exact h.kgTestStep C
  · exact h.kgCommitStep C
  · exact h.endCommand
  · exact h

/-! ### The key commands -/

theorem installKey (h : Frame .loadSk s t) (C : Collab) : Frame .loadSk s (installKey C t) :=
  { h with secKey := absurd (by decide), secKeyValid := absurd (by decide) }

theorem loadSkDecodeStep (h : Frame .loadSk s t) (C : Collab) : Frame .loadSk s (loadSkDecodeStep C t) := by
  have take (k : SecretKey) : Frame .loadSk s (takeKey k t) :=
    { h with secKey := absurd (by decide), secKeyValid := absurd (by decide) }
  unfold Machine.loadSkDecodeStep
  split
  · rename_i f g bigF bigG _
    have hk := take ⟨f, g, bigF, bigG⟩
    dsimp only
    split
    · exact { hk with secKey := absurd (by decide), secKeyValid := absurd (by decide) }
    · exact (hk.installKey C).finishOk
  · exact h.raiseError _

theorem loadSkStep (h : Frame .loadSk s t) (C : Collab) : Frame .loadSk s (loadSkStep C t) := by
  unfold Machine.loadSkStep
  split
  · exact h.dispatchStep _
  · exact h.loadSkDecodeStep C
  · exact (h.installKey C).finishOk
  · exact h.endCommand
  · exact h

theorem loadPkStep (h : Frame .loadPk s t) (C : Collab) : Frame .loadPk s (loadPkStep C t) := by
  unfold Machine.loadPkStep loadPkDecodeStep
  split
  · exact h.dispatchStep _
  · split
    · exact { h with pubKey := absurd (by decide), pubKeyValid := absurd (by decide) }
    · exact h.raiseError _
  · exact h.endCommand
  · exact h

theorem storeSkStep (h : Frame .storeSk s t) (C : Collab) : Frame .storeSk s (storeSkStep C t) := by
  unfold Machine.storeSkStep storeSkEncodeStep
  split
  · exact h.dispatchStep _
  · dsimp only
    split
    · exact h.raiseError _
    · exact (h.store (by decide) _).finishOk
  · exact h.endCommand
  · exact h

theorem storePkStep (h : Frame .storePk s t) (C : Collab) : Frame .storePk s (storePkStep C t) := by
  unfold Machine.storePkStep
  split
  · exact h.dispatchStep _
  · exact (h.store (by decide) _).finishOk
  · exact h.endCommand
  · exact h

/-! ### The signing commands -/

theorem signFail (h : Frame i s t) (hw : .sig ∈ writtenWindows i) (e : ErrCode) : Frame i s (signFail e t) :=
  (h.store hw []).raiseError e

theorem signSampleStep (h : Frame i s t) (hw : .sig ∈ writtenWindows i) (hi : i ∈ [.keygen, .sign, .signRec])
    (two : Bool) : Frame i s (signSampleStep two t) := by
  unfold Machine.signSampleStep
  split
  · exact h
  · exact (h.draw hi _).releaseBasis.signFail hw _
  · refine releaseBasis ?_
    split
    · exact ((h.drawInto hi _ _).put _ _).put _ _
    · exact (h.drawInto hi _ _).put _ _

theorem signEncodeStep (h : Frame i s t) (hw : .sig ∈ writtenWindows i) {andThen : State → State} (bytes : List Byte)
    (hthen : ∀ {u}, Frame i s u → Frame i s (andThen u)) : Frame i s (signEncodeStep bytes andThen t) := by
  unfold Machine.signEncodeStep
  split
  · exact h.signFail hw _
  · exact hthen (h.store hw _)

theorem signStep (h : Frame .sign s t) (C : Collab) : Frame .sign s (signStep C t) := by
  unfold Machine.signStep
  split
  · exact h.dispatchStep _
  · exact (h.enter _).put _ _
  · exact (h.getBasis C).enter _
  · exact h.signSampleStep (by decide) (by decide) _
  · exact h.signEncodeStep (by decide) _ finishOk
  · exact h.endCommand
  · exact h

theorem signRecStep (h : Frame .signRec s t) (C : Collab) : Frame .signRec s (signRecStep C t) := by
  unfold Machine.signRecStep
  split
  · exact h.dispatchStep _
  · exact (h.enter _).put _ _
  · exact (h.getBasis C).enter _
  · exact h.signSampleStep (by decide) (by decide) _
  · exact h.signEncodeStep (by decide) _ fun hu => hu.enter _
  · exact (h.store (by decide) _).finishOk
  · exact h.endCommand
  · exact h

/-! ### The verifying commands -/

theorem verifyDecodeStep (h : Frame .verify s t) (C : Collab) : Frame .verify s (verifyDecodeStep C t) := by
  unfold Machine.verifyDecodeStep
  split
  · exact (h.enter _).put _ _
  · exact h.reject (by decide)

theorem verifyNormStep (h : Frame .verify s t) : Frame .verify s (verifyNormStep t) := by
  unfold Machine.verifyNormStep
  dsimp only
  split
  · exact h.accept (by decide)
  · exact h.reject (by decide)

theorem verifyStep (h : Frame .verify s t) (C : Collab) : Frame .verify s (verifyStep C t) := by
  unfold Machine.verifyStep
  split
  · exact h.dispatchStep _
  · exact h.verifyDecodeStep C
  · exact (h.enter _).put _ _
  · exact h.verifyNormStep
  · exact h.endCommand
  · exact h

theorem rejectRec (h : Frame .verifyRec s t) : Frame .verifyRec s (rejectRec t) :=
  (h.store (win := .msg) (by decide) []).reject (by decide)

theorem verifyRecDecodeStep (h : Frame .verifyRec s t) (C : Collab) : Frame .verifyRec s (verifyRecDecodeStep C t) := by
  unfold Machine.verifyRecDecodeStep
  split
  · exact ((h.enter _).put _ _).put _ _
  · exact h.rejectRec

theorem verifyRecNormStep (h : Frame .verifyRec s t) : Frame .verifyRec s (verifyRecNormStep t) := by
  unfold Machine.verifyRecNormStep
  split
  · exact h.enter _
  · exact h.rejectRec

theorem verifyRecoverStep (h : Frame .verifyRec s t) (C : Collab) : Frame .verifyRec s (verifyRecoverStep C t) := by
  unfold Machine.verifyRecoverStep
  dsimp only
  split
  · exact ((h.enter _).put _ _).put _ _
  · exact h.rejectRec

theorem verifyMergeStep (h : Frame .verifyRec s t) : Frame .verifyRec s (verifyMergeStep t) := by
  unfold Machine.verifyMergeStep
  split
  · exact h.rejectRec
  · exact h.enter _

theorem verifyTagStep (h : Frame .verifyRec s t) (C : Collab) : Frame .verifyRec s (verifyTagStep C t) := by
  unfold Machine.verifyTagStep
  dsimp only
  split
  · exact (h.store (by decide) _).accept (by decide)
  · exact h.rejectRec

theorem verifyRecStep (h : Frame .verifyRec s t) (C : Collab) : Frame .verifyRec s (verifyRecStep C t) := by
  unfold Machine.verifyRecStep
  split
  · exact h.dispatchStep _
  · exact h.verifyRecDecodeStep C
  · exact h.verifyRecNormStep
  · exact (h.enter _).put _ _
  · exact h.verifyRecoverStep C
  · exact h.verifyMergeStep
  · exact h.verifyTagStep C
  · exact h.endCommand
  · exact h

/-! ### Every transition and every run -/

theorem transition (h : Frame i s t) (C : Collab) : Frame i s (transition C i t) := by
  cases i
  case configure => exact h.configureStep
  case destroy => exact h.destroyStep
  case keygen => exact h.keygenStep C
  case loadSk => exact h.loadSkStep C
  case loadPk => exact h.loadPkStep C
  case storeSk => exact h.storeSkStep C
  case storePk => exact h.storePkStep C
  case sign => exact h.signStep C
  case signRec => exact h.signRecStep C
  case verify => exact h.verifyStep C
  case verifyRec => exact h.verifyRecStep C

theorem move (h : Frame i s t) (C : Collab) : Frame i s (whenAnswered C i (Machine.transition C i) t) := by
  rcases whenAnswered_cases C i (Machine.transition C i) t with e | e <;> rw [e]
  · exact h
  · exact h.transition C

end Frame

/-- A meaning keeps the frame of its command, from any state (R36). -/
theorem frame_of_exec {i : Instr} {s t : State} (h : exec i s = .next t) : Frame i s t := by
  rw [exec_eq_runCommand] at h
  obtain ⟨-, rfl⟩ := runCommand_next h
  exact runSteps_keeps (fun _ _ hs => hs.move _) _ (Frame.refl i s)

/-- The commands that may write a window (R145, R147), by window. -/
theorem not_writtenWindows (i : Instr) :
    (i ∉ [.signRec, .verifyRec] → .msg ∉ writtenWindows i) ∧ (i ∉ [.sign, .signRec] → .sig ∉ writtenWindows i)
      ∧ (i ≠ .storePk → .pk ∉ writtenWindows i) ∧ (i ≠ .storeSk → .sk ∉ writtenWindows i) := by
  cases i <;> decide

/-- Settles O49: the frame of the command, field by field. -/
theorem commandsChangeOnlyTheirRegisters : Obligations.CommandsChangeOnlyTheirRegisters := by
  intro i s t h
  have f := frame_of_exec h
  obtain ⟨hmsg, hsig, hpk, hsk⟩ := not_writtenWindows i
  have lengths {l : List Instr} {win : Window} (hn : i ∉ l → win ∉ writtenWindows i) (hi : i ∉ .destroy :: l) :
      windowLen t win = windowLen s win := by
    rw [List.mem_cons, not_or] at hi
    exact f.lengths hi.1 win (hn hi.2)
  exact ⟨⟨f.build, f.ie, f.inbox, f.rdata, f.silent, f.turn, f.shown, f.overrun, f.busErr, f.lastOp⟩, f.words, f.config,
    lengths hmsg, lengths hsig, lengths fun hi => hpk (by simpa using hi), lengths fun hi => hsk (by simpa using hi),
    f.attempts, f.verdict, f.secKey, f.secKeyValid, f.pubKey, f.pubKeyValid, f.generator, f.sampler⟩

end Sys2Proof.Proofs.Frames
end

section
/-! The acceptance test of key generation over the reals (43_keygen.md R101). -/

namespace Sys2Proof.Proofs.Acceptance

open Sys2Proof Sys2Proof.Machine

/-- The rule's exact form, with the sum of squares written as one (R101). -/
theorem kgAccept_iff (b : Build) (ps : ParamSet) (v : List Int) (sigma : Rat) :
    kgAccept b ps v sigma = true ↔
      (ps.n : ℝ) * (sumTo ps.n fun i => coef v i ^ 2 : Int) - (sumTo ps.n (coef v) : Int) * (sumTo ps.n (coef v) : Int)
        ≤ sdDivisor b ps * (ps.n : ℝ) ^ 3 * ((sigma : ℝ) * sigma) := by
  simp only [kgAccept, decide_eq_true_eq, ← sq (coef v _)]
  rw [← Rat.cast_le (K := ℝ)]
  push_cast
  rfl

/-- DIV is N or N-1 as the build says (R101). -/
theorem sdDivisor_cast (b : Build) {ps : ParamSet} (hn : 1 ≤ ps.n) :
    (sdDivisor b ps : ℝ) = if b.sdDivisor = .n then (ps.n : ℝ) else (ps.n : ℝ) - 1 := by
  cases h : b.sdDivisor <;> simp [sdDivisor, h, hn]

/-- With a positive divisor a deviation of at most n·sigma is a bound on the sums without a root or a quotient. -/
theorem sqrt_variance_le_iff {n div s1 s2 sigma : ℝ} (hn : 0 < n) (hdiv : 0 < div) (hsigma : 0 ≤ sigma) :
    Real.sqrt ((s2 - s1 * s1 / n) / div) ≤ n * sigma ↔ n * s2 - s1 * s1 ≤ div * n ^ 3 * (sigma * sigma) := by
  have hsums : n * s2 - s1 * s1 = (s2 - s1 * s1 / n) * n := by field_simp
  have hbound : div * n ^ 3 * (sigma * sigma) = (n * sigma) ^ 2 * div * n := by ring
  rw [Real.sqrt_le_left (by positivity), div_le_iff₀ hdiv, hsums, hbound, mul_le_mul_iff_of_pos_right hn]

/-- One value has no spread: N·S2 = S1² (R101). -/
theorem sums_of_one (v : List Int) : sumTo 1 (fun i => coef v i ^ 2) = sumTo 1 (coef v) * sumTo 1 (coef v) := by
  simp [sumTo, sq]

/-- Settles O27: where the divisor is 0 there is one value and both sides hold; elsewhere both sides are squared and
multiplied out. -/
theorem acceptanceIsTheDeviationTest : Obligations.AcceptanceIsTheDeviationTest := by
  intro b ps v sigma hn hsigma n s1 s2 div var
  have hdivisor : (sdDivisor b ps : ℝ) = div := sdDivisor_cast b hn
  have hsigma' : (0 : ℝ) ≤ sigma := by exact_mod_cast hsigma
  have hn' : 0 < n := Nat.cast_pos.2 hn
  have hdiv : 0 ≤ div := hdivisor ▸ Nat.cast_nonneg _
  rw [kgAccept_iff, hdivisor, not_lt]
  rcases hdiv.eq_or_lt' with h0 | hpos
  · have hone : ps.n = 1 := by
      have hnot : b.sdDivisor ≠ .n := fun hb => hn'.ne' (by simpa [div, hb] using h0)
      have : n - 1 = 0 := by simpa [div, hnot] using h0
      exact Nat.cast_eq_one.1 (sub_eq_zero.1 this)
    have hsums : n * s2 - s1 * s1 = 0 := by
      simp only [n, s1, s2, hone, sums_of_one]
      push_cast
      ring
    have hvar : var = 0 := if_pos h0
    simp only [hvar, Real.sqrt_zero, h0, zero_mul]
    exact iff_of_true hsums.le (by positivity)
  · have hvar : var = (s2 - s1 * s1 / n) / div := if_neg hpos.ne'
    rw [hvar]
    exact (sqrt_variance_le_iff hn' hpos hsigma').symm

end Sys2Proof.Proofs.Acceptance
end

section
/-! Where a command waits and where it goes on (20_memory.md R48; 43_keygen.md R97, R98): the calls of `Calls` are the
model's, and a state of a command's path that does not wait is left by its transition. -/

namespace Sys2Proof.Proofs.Waiting

open Sys2Proof Sys2Proof.Machine Sys2Proof.Claims Sys2Proof.Proofs.Transitions Sys2Proof.Proofs.Running
  Sys2Proof.Proofs.Configure

variable {i : Instr} {s t : State}

theorem onPath_iff : onPath i s = true ↔ s.status.busy = true ∧ s.st ∈ commandPath i := by
  simp [onPath]

/-! ### The calls -/

/-- The key that passes both checks of LOAD_PK (R106). -/
theorem decodedPk_isSome_iff (C : Collab) (s : State) :
    (decodedPk C s).isSome = true ↔ ∃ h, unpackWindow C s .pk (pkParts s) = some [h] ∧ ∀ x ∈ h, x < s.ps.q := by
  unfold decodedPk
  rw [show [pkElem s.ps] = pkParts s from rfl]
  split
  · rename_i h hu
    simp [hu, pkInRange]
  · rename_i hne
    exact iff_of_false (by simp) fun ⟨h, hu, _⟩ => hne h hu

/-- A command calls a collaborator only on its path. -/
theorem mem_path_of_calls (h : Calls i s) : s.st ∈ commandPath i := by
  have site {l : List (Instr × Fsm)} (h : (i, s.st) ∈ l) (hl : ∀ p ∈ l, p.2 ∈ commandPath p.1) :
      s.st ∈ commandPath i := hl _ h
  rcases h with h | ⟨h, -⟩ | ⟨h, -⟩ | ⟨h, -⟩ | ⟨h, -⟩ | ⟨h, -⟩ | ⟨h, -⟩
  · exact site h (by decide)
  · exact site (List.mem_singleton.2 h) (by decide)
  · exact site h (by decide)
  · exact site (List.mem_singleton.2 h) (by decide)
  · exact site (List.mem_singleton.2 h) (by decide)
  · exact site h (by decide)
  · exact site h (by decide)

/-- On a command's path the model's calls are those that `Calls` lists (R48), command by command and state by state. -/
theorem calls_iff (h : s.st ∈ commandPath i) : Calls i s ↔ callsCollaborator Config.collab i s = true := by
  have atState : ∀ f ∈ commandPath i, s.st = f → (Calls i s ↔ callsCollaborator Config.collab i s = true) := by
    cases i <;> simp +contextual [commandPath, Calls, callsCollaborator, decodedPk_isSome_iff]
  exact atState _ h rfl

/-- A call that gets no answer is all that a command waits for. -/
theorem unanswered_iff (h : s.st ∈ commandPath i) :
    unanswered Config.collab i s = true ↔ Calls i s ∧ s.st ∈ s.silent := by
  rw [calls_iff h, unanswered, Bool.and_eq_true, List.contains_iff_mem]

/-! ### Holding and going on -/

/-- A command whose move changes nothing holds (R48). -/
theorem exec_of_fixed (hp : onPath i s = true) (h : whenAnswered Config.collab i (transition Config.collab i) s = s) :
    exec i s = .next s := by
  rw [exec_onPath hp, runSteps_fixed h]

/-- A command holds where its call gets no answer (R48). -/
theorem exec_of_unanswered (hb : s.status.busy = true) (hc : Calls i s) (hs : s.st ∈ s.silent) : exec i s = .next s := by
  have hp := mem_path_of_calls hc
  exact exec_of_fixed (onPath_iff.2 ⟨hb, hp⟩) (whenAnswered_waits ((calls_iff hp).1 hc) hs)

/-- A command goes on where it makes no call or its call is answered (R48). -/
theorem advance_of_answered (hb : s.status.busy = true) (hp : s.st ∈ commandPath i)
    (h : ¬(Calls i s ∧ s.st ∈ s.silent)) : advance i s = .next (transition Config.collab i s) := by
  rw [← unanswered_iff hp] at h
  rw [advance, if_pos (onPath_iff.2 ⟨hb, hp⟩), whenAnswered, if_neg h]

/-! ### A running command whose collaborators answer -/

/-- Command `i` runs in `s` and every deterministic collaborator answers it (R34, R48). -/
structure Live (i : Instr) (s : State) : Prop where
  busy : s.status.busy = true
  path : s.st ∈ commandPath i
  answers : s.silent = []

/-- Before FINISH such a command makes its transition and runs on, to the same end (R36). -/
theorem Live.move (h : Live i s) (hf : s.st ≠ .finish) (hmove : transition Config.collab i s = t) :
    Live i t ∧ exec i s = exec i t := by
  have hb : (transition Config.collab i s).status.busy = true := (transition_busy _ i s hf).trans h.busy
  have hadvance := advance_of_answered h.busy h.path (by simp [h.answers])
  refine hmove ▸ ⟨⟨hb, transition_path _ i s h.path hf, (transition_keeps _ i s).1.trans h.answers⟩, ?_⟩
  exact ((cuttingACommandKeepsItsEnd i s _ hadvance).1 hb).symm

/-! ### KEYGEN and its generator -/

theorem transition_kgGenerate (C : Collab) (h : s.st = .kgGenerate) : transition C .keygen s = kgGenerateStep s := by
  simp only [transition, keygenStep, h]

theorem kgGenerate_no_call (C : Collab) (h : s.st = .kgGenerate) : callsCollaborator C .keygen s = false := by
  simp [callsCollaborator, h]

theorem onPath_kgGenerate (hb : s.status.busy = true) (h : s.st = .kgGenerate) : onPath .keygen s = true :=
  onPath_iff.2 ⟨hb, h ▸ by decide⟩

/-- A RETRY is dropped, and nothing else changes (R98). -/
theorem exec_keygen_retry {g : List GenDraw} (hb : s.status.busy = true) (hst : s.st = .kgGenerate)
    (hg : s.genPort = .retry :: g) : exec .keygen s = exec .keygen { s with genPort := g } := by
  have hmove : transition Config.collab .keygen s = { s with genPort := g } := by
    rw [transition_kgGenerate _ hst, kgGenerateStep, hg]
  rw [exec_transition (onPath_kgGenerate hb hst) (kgGenerate_no_call _ hst) (by rw [hmove]; exact hb), hmove]

/-- With no answer to come KEYGEN holds in KG_GENERATE (R48, R97). -/
theorem exec_keygen_no_answer (hb : s.status.busy = true) (hst : s.st = .kgGenerate) (hg : s.genPort = []) :
    exec .keygen s = .next s := by
  refine exec_of_fixed (onPath_kgGenerate hb hst) ?_
  rw [whenAnswered_of_no_call (kgGenerate_no_call _ hst), transition_kgGenerate _ hst, kgGenerateStep, hg]

/-- KEYGEN of a configured block whose build has the family passes DISPATCH (R122). -/
theorem dispatchError_keygen (hc : s.status.configured = true) (hk : s.build.keygen = true) :
    dispatchError .keygen s = none := by
  simp [dispatchError, configuredChecks, familyBuilt, neededVariant, keyPresent, inputWindows, hc, hk]

/-- Beyond DISPATCH such a KEYGEN goes on in KG_GENERATE (R35, R96). -/
theorem exec_keygen_atDispatch (h : AtDispatch s) (hc : s.status.configured = true) (hk : s.build.keygen = true) :
    exec .keygen s = exec .keygen { s with st := .kgGenerate } :=
  exec_atDispatch_ok h (dispatchError_keygen hc hk)

/-- Settles O26: a RETRY and a missing answer by the one transition in KG_GENERATE; from DISPATCH KEYGEN goes on there,
whatever the generator's answers and the counter of turns are; and the calls are those that `Calls` lists. -/
theorem keygenRetriesAndWaits : Obligations.KeygenRetriesAndWaits := by
  intro s g hb
  refine ⟨exec_keygen_retry hb, exec_keygen_no_answer hb, fun hst hc hk hg => ?_, fun i => exec_of_unanswered hb,
    fun i => advance_of_answered hb⟩
  refine ⟨{ s with st := .kgGenerate }, ?_, hb, rfl, fun d k => ?_⟩
  · rw [exec_keygen_atDispatch ⟨hb, hst⟩ hc hk]
    exact exec_keygen_no_answer hb rfl hg
  · exact (exec_keygen_atDispatch (s := { s with genPort := d :: g, turn := k }) ⟨hb, hst⟩ hc hk).symm

end Sys2Proof.Proofs.Waiting
end

section
/-! One round of KEYGEN's loop from KG_GENERATE (43_keygen.md R96 - R102): a candidate is drawn, its basis built, a sample
taken; then the candidate is given up, and the loop starts again, or it is installed. -/

namespace Sys2Proof.Proofs.KeygenRound

open Sys2Proof Sys2Proof.Machine Sys2Proof.Claims Sys2Proof.Proofs.Transitions Sys2Proof.Proofs.Configure
  Sys2Proof.Proofs.KeyRanges Sys2Proof.Proofs.Running Sys2Proof.Proofs.Waiting Sys2Proof.Proofs.BasisOfKey

variable {s : State}

/-! ### Values that fit their words -/

/-- The field widths of the active set against the width of a word (R31). -/
theorem widths_of_fits (h : Fits s) : s.ps.qBits + 1 ≤ s.build.scratchW ∧ s.ps.fgBits ≤ s.build.scratchW
    ∧ s.ps.fguBits ≤ s.build.scratchW := by
  obtain ⟨-, -, -, -, hw⟩ := h
  simpa only [ParamSet.fitsWord, Bool.and_eq_true, decide_eq_true_eq, and_assoc] using hw

theorem modulus_of_fits (h : Fits s) : (0 : Int) < s.ps.q ∧ (s.ps.q : Int) < 2 ^ s.ps.qBits := by
  obtain ⟨-, -, hpos, hlt, -⟩ := h
  exact ⟨by exact_mod_cast hpos, by exact_mod_cast hlt⟩

/-- A vector of values that fit a word is held by SCRATCH as it is (R31). -/
theorem heldVec_of_fits (h : Fits s) {f : Nat → Int} (hf : ∀ j < s.ps.n, FitsWidth s.build.scratchW (f j)) :
    heldVec s.build (vec s.ps.n f) s.ps.n = vec s.ps.n f :=
  heldVec_eq (vec_length ..) h.1 ((Nat.le_add_left 1 _).trans (widths_of_fits h).1) (signedVec_vec hf).2

/-- A value read from a pattern of `w` bits fits every word at least as wide, for w = 0 as well. -/
theorem fitsWidth_of_pattern {w w' : Nat} (hw : w ≤ w') (x : Int) : FitsWidth w' (signExtend w (patternOf w x)) := by
  refine FitsWidth.mono ?_ hw
  rcases Nat.eq_zero_or_pos w with rfl | hpos
  · have hzero : signExtend 0 (patternOf 0 x) = 0 := by simp [signExtend, patternOf]
    exact hzero ▸ fitsWidth_zero 0
  · exact fitsWidth_signExtend hpos (patternOf_lt ..)

/-- A value in (-Q, Q) fits a word. -/
theorem fitsWidth_of_lt_modulus (h : Fits s) {x : Int} (hlo : -(s.ps.q : Int) < x) (hhi : x < s.ps.q) :
    FitsWidth s.build.scratchW x := by
  obtain ⟨-, hq⟩ := modulus_of_fits h
  refine FitsWidth.mono (w := s.ps.qBits + 1) ?_ (widths_of_fits h).1
  rw [FitsWidth, Nat.add_sub_cancel]
  omega

/-- A candidate read through its contract is held by SCRATCH as it is (R31, R97). -/
theorem candidate_putCandidate (h : Fits s) (c : Candidate) :
    candidateKey (putCandidate (contractCandidate s.ps c) s) = (contractCandidate s.ps c).key
      ∧ candidateH (putCandidate (contractCandidate s.ps c) s) = (contractCandidate s.ps c).h := by
  obtain ⟨hf, hg, hF, hG, hh⟩ := scratchVec_putCandidate (contractCandidate s.ps c) s s.ps.n
  obtain ⟨-, hfg, hfgu⟩ := widths_of_fits h
  have field {w : Nat} (hw : w ≤ s.build.scratchW) (v : List Int) := heldVec_of_fits h
    (f := fun j => signExtend w (patternOf w (coef v j))) fun j _ => fitsWidth_of_pattern hw _
  have publicPart (v : List Int) := heldVec_of_fits h (f := fun j => coef v j % s.ps.q) fun j _ =>
    have hq := (modulus_of_fits h).1
    fitsWidth_of_lt_modulus h ((neg_neg_of_pos hq).trans_le (Int.emod_nonneg _ hq.ne')) (Int.emod_lt_of_pos _ hq)
  simp only [candidateKey, candidateH, putCandidate_ps, hf, hg, hF, hG, hh]
  simp only [contractCandidate, field hfg, field hfgu, publicPart, and_self]

/-- A sample read through its contract is held by SCRATCH as it is (R31, R100). -/
theorem heldVec_contractSample (h : Fits s) (v : List Int) :
    heldVec s.build (contractSample s.ps v) s.ps.n = contractSample s.ps v :=
  have hq := (modulus_of_fits h).1
  heldVec_of_fits h fun _ _ => fitsWidth_of_lt_modulus h (Int.lt_tmod_of_pos _ hq) (Int.tmod_lt_of_pos _ hq)

/-! ### The round -/

/-- The state KG_GENERATE leads to with a candidate (R97). -/
def drawn (c : Candidate) (g : List GenDraw) (s : State) : State :=
  putCandidate (contractCandidate s.ps c) (countCandidate g s)

/-- The state KG_TEST starts in with the sample `v`, read through its contract (R99, R100). -/
def tested (c : Candidate) (g : List GenDraw) (v : List Int) (r : List SampleDraw) (s : State) : State :=
  sampled (contractSample s.ps v) r (kgBasisStep Config.collab (drawn c g s))

/-- The acceptance test of the round with candidate `c` and sample `v` (R101). -/
def passes (c : Candidate) (v : List Int) (s : State) : Bool :=
  kgAccept s.build s.ps (contractSample s.ps v) (2 / (candidateBasis s c).invNorm.getD 0 0)

/-- What is left of a round that started in `s` with candidate `c` once the candidate is given up: both answers consumed,
the attempt counted, and in cache mode the candidate's basis, which is not valid (R96, R99, R100). -/
def dropped (c : Candidate) (g : List GenDraw) (r : List SampleDraw) (s : State) : State :=
  { s with
    genPort := g
    sampPort := r
    kgAttempts := s.kgAttempts + 1
    scratch := Scratch.zero s.build
    basis := if s.acfg.keep then candidateBasis s c else s.basis
    tbasis := if s.acfg.keep then s.tbasis else Basis.zero
    status := { s.status with basisValid := if s.acfg.keep then false else s.status.basisValid } }

/-- A key pair is installed and KEYGEN ends: its basis is valid in cache mode, SCRATCH and TBASIS are scrubbed (R102,
R124). -/
def installed (C : Collab) (k : SecretKey) (h : List Int) (s : State) : State :=
  ended
    { s with
      sk := k
      pk := h
      pkNtt := nttOf C s h
      status := { s.status with skValid := true, pkValid := true, basisValid := s.acfg.keep } }

variable {c : Candidate} {g : List GenDraw} {r : List SampleDraw}

/-! ### What KG_TEST reads -/

theorem tested_build (v : List Int) : (tested c g v r s).build = s.build :=
  (sampled_build ..).trans (kgBasisStep_build ..)

theorem tested_acfg (v : List Int) : (tested c g v r s).acfg = s.acfg := (sampled_acfg ..).trans (kgBasisStep_acfg ..)

theorem tested_ps (v : List Int) : (tested c g v r s).ps = s.ps := ps_congr (tested_build v) (tested_acfg v)

theorem tested_st (v : List Int) : (tested c g v r s).st = .kgTest := sampled_st ..

theorem candidate_drawn (h : Fits s) : candidateKey (drawn c g s) = (contractCandidate s.ps c).key
    ∧ candidateH (drawn c g s) = (contractCandidate s.ps c).h :=
  candidate_putCandidate (s := countCandidate g s) h c

/-- From KG_BASIS to KG_TEST the candidate stays in SCRATCH. -/
theorem candidate_tested (h : Fits s) (v : List Int) : candidateKey (tested c g v r s) = (contractCandidate s.ps c).key
    ∧ candidateH (tested c g v r s) = (contractCandidate s.ps c).h := by
  obtain ⟨hkey, hh⟩ := candidate_drawn (c := c) (g := g) h
  obtain ⟨hkey', hh'⟩ := candidate_kgBasisStep Config.collab (drawn c g s)
  obtain ⟨hkey'', hh''⟩ :=
    candidate_sampled (kgBasisStep Config.collab (drawn c g s)) (contractSample s.ps v) r
  exact ⟨hkey''.trans (hkey'.trans hkey), hh''.trans (hh'.trans hh)⟩

/-- The sample that was put into SCRATCH. -/
theorem sample_tested (h : Fits s) (v : List Int) :
    scratchVec (tested c g v r s) .s1 s.ps.n = contractSample s.ps v := by
  have hscratch : (tested c g v r s).scratch
      = putWords s.build .s1 (contractSample s.ps v) (kgBasisStep Config.collab (drawn c g s)).scratch :=
    (sampled_scratch ..).trans (by rw [kgBasisStep_build]; rfl)
  rw [scratchVec, tested_build, hscratch, slotVec_putWords, if_pos rfl, heldVec_contractSample h]

/-- The width is that of the candidate's basis (R99). -/
theorem candidateSigma_tested (h : Fits s) (v : List Int) :
    candidateSigma Config.collab (tested c g v r s) = 2 / (candidateBasis s c).invNorm.getD 0 0 := by
  rw [candidateSigma, (candidate_tested h v).1, basisFor_congr (tested_build v) (tested_acfg v)]
  rfl

/-- In KG_TEST the candidate passes or is given up (R101). -/
theorem kgTestStep_tested (h : Fits s) (v : List Int) : kgTestStep Config.collab (tested c g v r s) =
    if passes c v s then { tested c g v r s with st := .kgCommit } else kgRestart (tested c g v r s) := by
  have htest : kgAccept (tested c g v r s).build (tested c g v r s).ps
      (scratchVec (tested c g v r s) .s1 (tested c g v r s).ps.n) (candidateSigma Config.collab (tested c g v r s))
      = passes c v s := by
    rw [tested_build, tested_ps, sample_tested h, candidateSigma_tested h, passes]
  rw [kgTestStep, htest]

/-! ### What is left of the round -/

/-- Where a basis is built and what releasing it leaves, as one update each (R89, R91). -/
theorem holdBasis_eq (bas : Basis) (s : State) : holdBasis bas s =
    { s with
      basis := if s.acfg.keep then bas else s.basis
      tbasis := if s.acfg.keep then s.tbasis else bas } := by
  unfold holdBasis
  split <;> rfl

theorem releaseBasis_eq (s : State) :
    releaseBasis s = { s with tbasis := if s.acfg.keep then s.tbasis else Basis.zero } := by
  unfold releaseBasis
  split <;> rfl

/-- A candidate given up in KG_SAMPLE (R96, R99, R100). -/
theorem kgRestart_round (h : Fits s) : kgRestart (releaseBasis
      { kgBasisStep Config.collab (drawn c g s) with sampPort := r }) = { dropped c g r s with st := .kgGenerate } := by
  have hbasis : basisFor Config.collab (drawn c g s) (candidateKey (drawn c g s)) = candidateBasis s c := by
    rw [(candidate_drawn h).1]
    rfl
  unfold kgBasisStep
  rw [hbasis]
  simp only [releaseBasis_eq, holdBasis_eq, kgRestart, dropped, scratchPut, drawn, putCandidate, countCandidate]
  cases s.acfg.keep <;> rfl

/-- Giving the candidate up in KG_TEST leaves the same as in KG_SAMPLE (R96, R100). -/
theorem kgRestart_sampled (v : List Int) (r : List SampleDraw) (s : State) :
    kgRestart (sampled v r s) = kgRestart (releaseBasis { s with sampPort := r }) := by
  rw [sampled, releaseBasis_eq, releaseBasis_eq]
  rfl

theorem kgRestart_tested (h : Fits s) (v : List Int) :
    kgRestart (tested c g v r s) = { dropped c g r s with st := .kgGenerate } :=
  (kgRestart_sampled ..).trans (kgRestart_round h)

/-- The commit and the ending sequence leave the candidate's keys, and nothing else that giving it up would not have left
(R102, R124). -/
theorem endCommand_kgCommitStep (C : Collab) (s : State) : endCommand (kgCommitStep C { s with st := .kgCommit })
    = installed C (candidateKey s) (candidateH s) (kgRestart s) := rfl

/-! ### KEYGEN, transition by transition -/

/-- KEYGEN is in KG_GENERATE with candidate `c` to come, its collaborators answer, and its set fits SCRATCH. -/
structure Generating (c : Candidate) (g : List GenDraw) (s : State) : Prop where
  fits : Fits s
  live : Live .keygen s
  st_eq : s.st = .kgGenerate
  genPort_eq : s.genPort = .cand c :: g

theorem Generating.intro (hfits : Fits s) (hb : s.status.busy = true) (hst : s.st = .kgGenerate) (hs : s.silent = [])
    (hg : s.genPort = .cand c :: g) : Generating c g s :=
  ⟨hfits, ⟨hb, hst ▸ by decide, hs⟩, hst, hg⟩

/-- A candidate is drawn and its basis built (R97, R99). -/
theorem exec_to_kgSample (h : Generating c g s) : Live .keygen (kgBasisStep Config.collab (drawn c g s))
    ∧ exec .keygen s = exec .keygen (kgBasisStep Config.collab (drawn c g s)) := by
  have hdraw : transition Config.collab .keygen s = drawn c g s := by
    rw [transition_kgGenerate _ h.st_eq, kgGenerateStep, h.genPort_eq]
    rfl
  have hbasis : transition Config.collab .keygen (drawn c g s) = kgBasisStep Config.collab (drawn c g s) := rfl
  obtain ⟨hlive, hexec⟩ := h.live.move (by rw [h.st_eq]; decide) hdraw
  obtain ⟨hlive', hexec'⟩ := hlive.move nofun hbasis
  exact ⟨hlive', hexec.trans hexec'⟩

theorem transition_kgSample : transition Config.collab .keygen (kgBasisStep Config.collab (drawn c g s))
    = kgSampleStep (kgBasisStep Config.collab (drawn c g s)) := rfl

theorem sampPort_kgBasisStep : (kgBasisStep Config.collab (drawn c g s)).sampPort = s.sampPort :=
  holdBasis_sampPort ..

/-- A failed sample: the loop starts again (R100). -/
theorem exec_failed_sample (h : Generating c g s) (hr : s.sampPort = .fail :: r) :
    exec .keygen s = exec .keygen { dropped c g r s with st := .kgGenerate } := by
  obtain ⟨hlive, hexec⟩ := exec_to_kgSample h
  have hmove : transition Config.collab .keygen (kgBasisStep Config.collab (drawn c g s))
      = { dropped c g r s with st := .kgGenerate } := by
    rw [transition_kgSample, kgSampleStep, sampPort_kgBasisStep, hr, ← kgRestart_round h.fits]
  exact hexec.trans (hlive.move nofun hmove).2

variable {s1 s2 : List Int}

/-- A sample is taken: KEYGEN goes on in KG_TEST (R100). -/
theorem exec_to_kgTest (h : Generating c g s) (hr : s.sampPort = .ok s1 s2 :: r) :
    Live .keygen (tested c g s1 r s) ∧ exec .keygen s = exec .keygen (tested c g s1 r s) := by
  obtain ⟨hlive, hexec⟩ := exec_to_kgSample h
  have hps : (kgBasisStep Config.collab (drawn c g s)).ps = s.ps :=
    ps_congr (kgBasisStep_build ..) (kgBasisStep_acfg ..)
  have hmove : transition Config.collab .keygen (kgBasisStep Config.collab (drawn c g s)) = tested c g s1 r s := by
    rw [transition_kgSample, kgSampleStep, sampPort_kgBasisStep, hr, tested, ← hps]
    rfl
  obtain ⟨hlive', hexec'⟩ := hlive.move nofun hmove
  exact ⟨hlive', hexec.trans hexec'⟩

theorem transition_tested (v : List Int) :
    transition Config.collab .keygen (tested c g v r s) = kgTestStep Config.collab (tested c g v r s) := by
  simp only [transition, keygenStep, tested_st]

theorem tested_not_finish (v : List Int) : (tested c g v r s).st ≠ .finish := by
  rw [tested_st]
  decide

/-- A sample that fails the test: the loop starts again (R101). -/
theorem exec_failed_test (h : Generating c g s) (hr : s.sampPort = .ok s1 s2 :: r) (hfail : passes c s1 s = false) :
    exec .keygen s = exec .keygen { dropped c g r s with st := .kgGenerate } := by
  obtain ⟨hlive, hexec⟩ := exec_to_kgTest h hr
  have hmove : transition Config.collab .keygen (tested c g s1 r s) = { dropped c g r s with st := .kgGenerate } := by
    rw [transition_tested, kgTestStep_tested h.fits, hfail, ← kgRestart_tested h.fits s1]
    rfl
  exact hexec.trans (hlive.move (tested_not_finish s1) hmove).2

/-- A sample that passes the test: the candidate is installed, and what else the round leaves is what giving the candidate
up would have left (R101, R102, R124). -/
theorem exec_passed_test (h : Generating c g s) (hr : s.sampPort = .ok s1 s2 :: r) (hpass : passes c s1 s = true) :
    exec .keygen s = .next (installed Config.collab (contractCandidate s.ps c).key (contractCandidate s.ps c).h
      (dropped c g r s)) := by
  obtain ⟨hlive, hexec⟩ := exec_to_kgTest h hr
  have htest : transition Config.collab .keygen (tested c g s1 r s) = { tested c g s1 r s with st := .kgCommit } := by
    rw [transition_tested, kgTestStep_tested h.fits, hpass]
    rfl
  obtain ⟨hlive', hexec'⟩ := hlive.move (tested_not_finish s1) htest
  obtain ⟨hlive'', hexec''⟩ := hlive'.move nofun rfl
  obtain ⟨hkey, hh⟩ := candidate_tested (c := c) (g := g) (r := r) h.fits s1
  calc exec .keygen s
    _ = exec .keygen (kgCommitStep Config.collab { tested c g s1 r s with st := .kgCommit }) :=
      hexec.trans (hexec'.trans hexec'')
    _ = .next (endCommand (kgCommitStep Config.collab { tested c g s1 r s with st := .kgCommit })) :=
      exec_finish hlive''.busy rfl
    _ = _ := by
      rw [endCommand_kgCommitStep, hkey, hh, kgRestart_tested h.fits]
      rfl

/-! ### The statements -/

/-- Settles O24: DISPATCH leads to KG_GENERATE, and the round there installs the candidate. -/
theorem keygenInstallsTheAcceptedCandidate : Obligations.KeygenInstallsTheAcceptedCandidate := by
  intro s c s1 s2 g r hfits hstart hconf hkg hs hg hr hpass
  have hgen : Generating c g { s with st := .kgGenerate } := .intro hfits hstart.1 rfl hs hg
  exact (exec_keygen_atDispatch hstart hconf hkg).trans (exec_passed_test hgen hr hpass)

/-- Settles O25: the candidate is given up in KG_SAMPLE or in KG_TEST, and both leave `dropped`. -/
theorem keygenRestartsOnARejectedCandidate : Obligations.KeygenRestartsOnARejectedCandidate := by
  intro s c d g r hfits hb hst hs hg hr hd
  have hgen : Generating c g s := .intro hfits hb hst hs hg
  have hdropped : { dropped c g r s with st := .kgGenerate } = dropped c g r s := by
    rw [← hst]
    rfl
  rw [← dropped, ← hdropped]
  cases d with
  | fail => exact exec_failed_sample hgen hr
  | ok s1 s2 => exact exec_failed_test hgen hr hd

end Sys2Proof.Proofs.KeygenRound
end

section
/-! Wire forms (40_helpers.md R72, R73): the model's encoder is the one the statements write out, what Pack wrote Unpack reads
back where the elements are not coded, and a window gives back the bytes stored in it. -/

namespace Sys2Proof.Proofs.WireForms

open Sys2Proof Sys2Proof.Machine Sys2Proof.Claims Sys2Proof.Proofs.BitStreams Sys2Proof.Proofs.KeyRanges
  Sys2Proof.Proofs.Scope

/-! ### The wire forms written out -/

/-- EncodeElem gives the fields of an uncoded element bit by bit, in the order of R70. -/
theorem encodeElem_eq_elementBits (o : BitOrder) (n : Nat) (e : ElemDesc) (v : List Int) :
    encodeElem Config.collab o n e v = elementBits o n e.coding e.kind e.w v := by
  cases hc : e.coding with
  | huffman => rw [encodeElem, hc, elementBits, if_pos rfl]
  | none =>
    rw [encodeElem, hc, elementBits, if_neg nofun]
    cases o <;> rfl

theorem packSk_eq_wireSk (s : State) : packSk Config.collab s = wireSk s := by
  simp [packSk, wireSk, pack, skSchema, encodeElem_eq_elementBits]

theorem packPk_eq_wirePk (s : State) : packPk Config.collab s = wirePk s := by
  simp [packPk, wirePk, pack, pkElem, encodeElem_eq_elementBits]

/-! ### Unpack of what Pack wrote -/

section

variable {C : Collab} {o : BitOrder} {n : Nat} {e : ElemDesc} {v : List Int} {schema : List ElemDesc} {vs : List (List Int)}

/-- `v` is a vector of `n` values, each of which its pattern in the fields of `e` stands for (R71). -/
def Encodable (n : Nat) (e : ElemDesc) (v : List Int) : Prop :=
  v.length = n ∧ ∀ x ∈ v, valueOf e.signed e.w (patternOf e.w x) = x

theorem encodable_of_signedVec (hsigned : e.signed = true) (hw : 1 ≤ e.w) (h : SignedVec n e.w v) : Encodable n e v := by
  obtain ⟨hlen, hrange⟩ := h
  refine ⟨hlen, fun x hx => ?_⟩
  obtain ⟨hlo, hhi⟩ := hrange x hx
  rw [hsigned, valueOf, if_pos rfl, signExtend_patternOf hw hlo hhi]

theorem coef_mem {i : Nat} (hi : i < v.length) : coef v i ∈ v := by
  rw [show coef v i = v[i] from List.getD_eq_getElem _ _ hi]
  exact List.getElem_mem _

/-- A vector is determined by its length and its coefficients. -/
theorem vec_coef (h : v.length = n) {f : Nat → Int} (hf : ∀ i < n, f i = coef v i) : vec n f = v := by
  subst h
  refine List.ext_getElem (vec_length ..) fun i hi hi' => ?_
  rw [← List.getD_eq_getElem _ 0 hi, ← List.getD_eq_getElem _ 0 hi']
  exact (coef_vec ..).trans ((if_pos hi').trans (hf i hi'))

/-- Field i of an uncoded element, wherever the element stands in the stream (R70, R72). -/
theorem readField_encodeElem (hnone : e.coding = .none) (pre post : List Bool) {i : Nat} (hi : i < n) :
    readField o e.w (pre ++ (encodeElem C o n e v ++ post)) (pre.length + i * e.w) = patternOf e.w (coef v i) := by
  refine readField_eq (patternOf_lt ..) fun j hj => ?_
  have hfield : i * e.w + j < n * e.w := by
    have hnext : (i + 1) * e.w ≤ n * e.w := Nat.mul_le_mul_right _ hi
    rw [Nat.add_mul] at hnext
    omega
  have hdiv : (i * e.w + j) / e.w = i := by
    rw [Nat.mul_comm, Nat.mul_add_div (by omega), Nat.div_eq_of_lt hj, Nat.add_zero]
  have hmod : (i * e.w + j) % e.w = j := by rw [Nat.mul_comm, Nat.mul_add_mod, Nat.mod_eq_of_lt hj]
  have hlen : (encodeElem C o n e v).length = n * e.w := encodeElem_length C o n e v hnone
  rw [Nat.add_assoc, List.getD_append_right _ _ _ _ (Nat.le_add_right ..), Nat.add_sub_cancel_left,
    List.getD_append _ _ _ _ (hlen ▸ hfield), encodeElem, hnone]
  simp only
  rw [flatMap_get n e.w _ (fun _ => fieldBits_length ..) _ hfield, hdiv, hmod, getD_fieldBits _ _ hj]

/-- The elements read at the place where they were written are those that were written (R72, R73). -/
theorem elementsAt_encoded (hs : ∀ e ∈ schema, e.coding = .none) (h : List.Forall₂ (Encodable n) schema vs)
    (pre : List Bool) :
    elementsAt o n (pre ++ (List.zipWith (encodeElem C o n) schema vs).flatten) schema pre.length = vs := by
  induction h generalizing pre with
  | nil => rfl
  | @cons e v schema vs hv _ ih =>
    obtain ⟨hnone, hrest⟩ := List.forall_mem_cons.1 hs
    obtain ⟨hlen, hvalue⟩ := hv
    have hnext : pre.length + n * e.w = (pre ++ encodeElem C o n e v).length := by
      rw [List.length_append, encodeElem_length C o n e v hnone]
    rw [elementsAt, List.zipWith_cons_cons, List.flatten_cons]
    congr 1
    · refine vec_coef hlen fun i hi => ?_
      rw [readField_encodeElem hnone pre _ hi, hvalue _ (coef_mem (hlen ▸ hi))]
    · rw [← List.append_assoc, hnext]
      exact ih hrest _

/-- A bit string and the bits of its bytes have the same fields: the pad bits are those past its end (R69, R70). -/
theorem readField_bitsOf_toBytes (w : Nat) (b : List Bool) (p : Nat) :
    readField o w (bitsOf o (toBytes o b)) p = readField o w b p := by
  simp only [readField, getD_bitsOf, streamBit_toBytes]

theorem elementsAt_bitsOf_toBytes (b : List Bool) (p : Nat) :
    elementsAt o n (bitsOf o (toBytes o b)) schema p = elementsAt o n b schema p := by
  induction schema generalizing p with
  | nil => rfl
  | cons e r ih => simp only [elementsAt, readField_bitsOf_toBytes, ih]

/-- Uncoded elements take n fields each (R72). -/
theorem encoded_length (hs : ∀ e ∈ schema, e.coding = .none) (hlen : schema.length = vs.length) :
    (List.zipWith (encodeElem C o n) schema vs).flatten.length = n * (schema.map ElemDesc.w).sum := by
  induction schema generalizing vs with
  | nil => simp
  | cons e r ih =>
    obtain ⟨hnone, hrest⟩ := List.forall_mem_cons.1 hs
    obtain ⟨v, vs, rfl⟩ := List.exists_cons_of_length_eq_add_one hlen.symm
    rw [List.zipWith_cons_cons, List.flatten_cons, List.length_append, encodeElem_length C o n e v hnone,
      ih hrest (Nat.succ.inj hlen), List.map_cons, List.sum_cons, Nat.mul_add]

/-- Unpack undoes Pack on uncoded elements (R72, R73). -/
theorem unpack_pack (hs : ∀ e ∈ schema, e.coding = .none) (h : List.Forall₂ (Encodable n) schema vs) :
    unpack C o n (pack o (List.zipWith (encodeElem C o n) schema vs)) schema = some vs := by
  have hlen := encoded_length (C := C) (o := o) (n := n) hs h.length_eq
  rw [unpack_uncoded hs, pack]
  refine ⟨⟨?_, fun j hj _ => ?_⟩, ?_⟩
  · rw [toBytes_length, hlen, byteCount]
  · rw [getD_bitsOf, streamBit_toBytes, List.getD_eq_default _ _ (hlen ▸ hj)]
  · rw [elementsAt_bitsOf_toBytes]
    exact elementsAt_encoded hs h []

end

/-! ### A window after a store -/

/-- A window gives back the bytes that were stored in it (R13, R147). -/
theorem windowRead_windowStore {s : State} (hwf : s.mem.wf) {win : Window} {bytes : List Byte}
    (hfit : bytes.length ≤ windowCap s.build win) :
    windowRead (windowStore win bytes s) win bytes.length = bytes := by
  refine List.ext_getElem (readBytes_length ..) fun k hk hk' => ?_
  rw [← List.getD_eq_getElem _ 0 hk, ← List.getD_eq_getElem _ 0 hk', windowRead, readBytes_getD _ _ _ _ hk',
    readByte_windowStore_add hwf win bytes (by omega)]

theorem windowLen_windowStore_le (win : Window) (bytes : List Byte) (s : State) :
    (windowLen (windowStore win bytes s) win).toNat ≤ bytes.length := by
  rw [windowLen_windowStore, BitVec.toNat_ofNat]
  exact Nat.mod_le ..

/-- Unpack of a window that was stored reads the stored bytes: its length register says how many (R73, R147). -/
theorem unpackWindow_windowStore (C : Collab) {s : State} (hwf : s.mem.wf) {win : Window} {bytes : List Byte}
    (hfit : bytes.length ≤ windowCap s.build win) (hlen : bytes.length < 2 ^ 32) (schema : List ElemDesc) :
    unpackWindow C (windowStore win bytes s) win schema = unpack C s.build.bitOrder s.ps.n bytes schema := by
  rw [unpackWindow, windowLen_windowStore, BitVec.toNat_ofNat, Nat.mod_eq_of_lt hlen, windowRead_windowStore hwf hfit,
    windowStore_build, windowStore_ps]

end Sys2Proof.Proofs.WireForms
end

section
/-! LOAD_SK, LOAD_PK, STORE_SK and STORE_PK from DISPATCH to their end (44_keys.md R105 - R108), and the secret key through
the SK window and back. -/

namespace Sys2Proof.Proofs.KeyStores

open Sys2Proof Sys2Proof.Machine Sys2Proof.Claims Sys2Proof.Proofs.Transitions Sys2Proof.Proofs.Configure
  Sys2Proof.Proofs.KeyRanges Sys2Proof.Proofs.Waiting Sys2Proof.Proofs.WireForms

variable {i : Instr} {s t u : State}

/-! ### From DISPATCH to the rule's first state, and from its last one to the end -/

/-- The four commands of 44_keys.md. -/
def keyCommands : List Instr := [.loadSk, .loadPk, .storeSk, .storePk]

/-- A key command of a configured block passes DISPATCH with the key it exports or an input that fits its window (R122). -/
theorem dispatchError_keyCommand (hi : i ∈ keyCommands) (hc : s.status.configured = true)
    (hkey : keyPresent s.status i = true)
    (hfit : ∀ win ∈ inputWindows i, (windowLen s win).toNat ≤ windowCap s.build win) : dispatchError i s = none := by
  have hchecks : configuredChecks i s = none := by
    have hbuilt : ∀ i ∈ keyCommands, familyBuilt s.build i = true ∧ neededVariant i = none := by
      simp [keyCommands, familyBuilt, neededVariant]
    obtain ⟨hfamily, hvariant⟩ := hbuilt i hi
    simpa [configuredChecks, hc, hfamily, hvariant, hkey, lengthFits] using hfit
  cases i
  case configure | destroy => exact absurd hi (by decide)
  all_goals exact hchecks

theorem onPath_firstState (h : AtDispatch s) (i : Instr) : onPath i { s with st := firstState i } = true :=
  onPath_iff.2 ⟨h.1, show firstState i ∈ commandPath i by cases i <;> decide⟩

/-- A command that has passed DISPATCH runs with the collaborators it had there. -/
theorem live_firstState (h : AtDispatch s) (hs : s.silent = []) (i : Instr) : Live i { s with st := firstState i } :=
  ⟨h.1, (onPath_iff.1 (onPath_firstState h i)).2, hs⟩

/-- A command whose collaborators answer ends with the ending sequence on what its transition into FINISH leaves (R124). -/
theorem exec_of_live_finish (h : Live i s) (hi : i ≠ .destroy) (hf : s.st ≠ .finish)
    (hmove : transition Config.collab i s = t) (hst : t.st = .finish) (hend : endCommand t = u) : exec i s = .next u := by
  obtain ⟨hlive, hexec⟩ := h.move hf hmove
  rw [hexec, exec_finish hlive.busy hst, if_neg hi, ← hend]
  rfl

/-! ### LOAD_SK -/

/-- A window that unpacks gives the key to SK_STORE; in cache mode its basis is still to be built (R92, R105). -/
theorem loadSkDecodeStep_of_key {C : Collab} {k : SecretKey}
    (h : unpackWindow C s .sk (keyParts s) = some [k.f, k.g, k.bigF, k.bigG]) :
    loadSkDecodeStep C s = if s.acfg.keep then { invalidateBasis (takeKey k s) with st := .kyBasis }
      else finishOk (installKey C (takeKey k s)) := by
  rw [loadSkDecodeStep, show skSchema s.ps s.acfg = keyParts s from rfl, h]
  rfl

theorem loadSkDecodeStep_of_no_key {C : Collab}
    (h : ∀ f g bigF bigG, unpackWindow C s .sk (keyParts s) ≠ some [f, g, bigF, bigG]) :
    loadSkDecodeStep C s = raiseError .outOfBounds s := by
  unfold loadSkDecodeStep
  split
  · exact absurd ‹_› (h _ _ _ _)
  · rfl

/-- In KY_DECODE a window that unpacks is installed, in cache mode by way of KY_BASIS (R92, R105). -/
theorem exec_loadSk_of_key {k : SecretKey} (hlive : Live .loadSk { s with st := .kyDecode })
    (h : unpackWindow Config.collab s .sk (keyParts s) = some [k.f, k.g, k.bigF, k.bigG]) :
    exec .loadSk { s with st := .kyDecode } = .next (endCommand (installKey Config.collab (takeKey k s))) := by
  have hmove : transition Config.collab .loadSk { s with st := .kyDecode } = _ :=
    loadSkDecodeStep_of_key (s := { s with st := .kyDecode }) h
  cases hkeep : s.acfg.keep with
  | false =>
    rw [hkeep, if_neg nofun] at hmove
    exact exec_of_live_finish hlive nofun nofun hmove rfl rfl
  | true =>
    rw [hkeep, if_pos rfl] at hmove
    obtain ⟨hbasis, hexec⟩ := hlive.move nofun hmove
    exact hexec.trans (exec_of_live_finish hbasis nofun nofun rfl rfl rfl)

/-- In KY_DECODE a window that does not unpack ends the command and leaves keys and basis (R105). -/
theorem exec_loadSk_of_no_key (hlive : Live .loadSk { s with st := .kyDecode })
    (h : ∀ f g bigF bigG, unpackWindow Config.collab s .sk (keyParts s) ≠ some [f, g, bigF, bigG]) :
    exec .loadSk { s with st := .kyDecode } = .next (failed .outOfBounds s) :=
  exec_of_live_finish hlive nofun nofun (loadSkDecodeStep_of_no_key (s := { s with st := .kyDecode }) h) rfl rfl

/-- Settles O28: KY_DECODE decides, and KY_BASIS builds the basis where it is kept. -/
theorem loadSkInstallsTheKey : Obligations.LoadSkInstallsTheKey := by
  intro s h hc hfit hs
  have hok : dispatchError .loadSk s = none :=
    dispatchError_keyCommand (by decide) hc rfl (List.forall_mem_singleton.2 hfit)
  have hlive := live_firstState h hs .loadSk
  rw [exec_atDispatch_ok h hok]
  split
  · rename_i f g bigF bigG hkey
    exact exec_loadSk_of_key (k := ⟨f, g, bigF, bigG⟩) hlive hkey
  · exact exec_loadSk_of_no_key hlive ‹_›

/-! ### LOAD_PK -/

theorem decodedPk_of_inRange {C : Collab} {h : List Int} (hu : unpackWindow C s .pk (pkParts s) = some [h])
    (hq : ∀ x ∈ h, x < s.ps.q) : decodedPk C s = some h := by
  have hrange : pkInRange s.ps h = true := by simpa [pkInRange] using hq
  rw [decodedPk, show [pkElem s.ps] = pkParts s from rfl, hu]
  exact if_pos hrange

theorem decodedPk_eq_none {C : Collab}
    (hbad : ∀ h, unpackWindow C s .pk (pkParts s) = some [h] → ∃ x ∈ h, (s.ps.q : Int) ≤ x) :
    decodedPk C s = none := by
  rw [← Option.not_isSome_iff_eq_none, decodedPk_isSome_iff]
  rintro ⟨h, hu, hlt⟩
  obtain ⟨x, hx, hle⟩ := hbad h hu
  exact absurd (hlt x hx) (not_lt.2 hle)

/-- Settles O29: KY_DECODE asks for the transform of a key that passes both checks only, so any other ends without a call. -/
theorem loadPkInstallsTheKey : Obligations.LoadPkInstallsTheKey := by
  intro s h hc hfit
  have hok : dispatchError .loadPk s = none :=
    dispatchError_keyCommand (by decide) hc rfl (List.forall_mem_singleton.2 hfit)
  rw [exec_atDispatch_ok h hok]
  constructor
  · intro v hu hq hs
    have hmove : transition Config.collab .loadPk { s with st := .kyDecode } = finishOk (takePk Config.collab v s) := by
      have hdecoded : decodedPk Config.collab { s with st := .kyDecode } = some v := decodedPk_of_inRange hu hq
      simp only [transition, loadPkStep, loadPkDecodeStep, hdecoded]
      rfl
    exact exec_of_live_finish (live_firstState h hs .loadPk) nofun nofun hmove rfl rfl
  · intro hbad
    have hdecoded : decodedPk Config.collab { s with st := .kyDecode } = none := decodedPk_eq_none hbad
    have hmove : transition Config.collab .loadPk { s with st := .kyDecode } = raiseError .outOfBounds s := by
      simp only [transition, loadPkStep, loadPkDecodeStep, hdecoded]
      rfl
    have hcall : callsCollaborator Config.collab .loadPk { s with st := .kyDecode } = false := by
      simp [callsCollaborator, hdecoded]
    exact exec_of_transition_finish (onPath_firstState h .loadPk) hcall hmove h.1 rfl

/-! ### STORE_SK and STORE_PK -/

/-- Settles O30: the encoder's bytes are the wire form, and KY_ENCODE compares their number with SK_CAP. -/
theorem storeSkWritesTheWireForm : Obligations.StoreSkWritesTheWireForm := by
  intro s h hc hkey hs
  have hlive := live_firstState h hs .storeSk
  have hmove : transition Config.collab .storeSk { s with st := .kyEncode } =
      if s.build.skCap < (wireSk s).length then raiseError .functionFailure s
      else finishOk (windowStore .sk (wireSk s) s) := by
    rw [← packSk_eq_wireSk]
    rfl
  rw [exec_atDispatch_ok h (dispatchError_keyCommand (i := .storeSk) (by decide) hc hkey nofun)]
  split <;> rename_i hcap
  · rw [if_pos hcap] at hmove
    exact exec_of_live_finish hlive nofun nofun hmove rfl rfl
  · rw [if_neg hcap] at hmove
    exact exec_of_live_finish hlive nofun nofun hmove rfl rfl

/-- Settles O31: KY_ENCODE of STORE_PK calls no collaborator and cannot fail. -/
theorem storePkWritesTheWireForm : Obligations.StorePkWritesTheWireForm := by
  intro s h hc hkey
  have hmove : transition Config.collab .storePk { s with st := .kyEncode } = finishOk (windowStore .pk (wirePk s) s) := by
    rw [← packPk_eq_wirePk]
    rfl
  rw [exec_atDispatch_ok h (dispatchError_keyCommand (i := .storePk) (by decide) hc hkey nofun)]
  exact exec_of_transition_finish (onPath_firstState h .storePk) rfl hmove h.1 rfl

/-! ### The secret key through the SK window and back -/

theorem uncoded_keyParts (hcoding : s.acfg.skCoding = .none) : ∀ e ∈ keyParts s, e.coding = .none := by
  simp [keyParts, hcoding]

/-- A key in its ranges is a list of encodable vectors (R26, R71). -/
theorem encodable_key (hwf : s.build.wf = true) (h : KeyInRange s.ps s.sk) :
    List.Forall₂ (Encodable s.ps.n) (keyParts s) [s.sk.f, s.sk.g, s.sk.bigF, s.sk.bigG] := by
  obtain ⟨hf, hg, hbigF, hbigG⟩ := h
  have hb := setBounds_active hwf
  exact .cons (encodable_of_signedVec rfl hb.fg_pos hf) <| .cons (encodable_of_signedVec rfl hb.fg_pos hg) <|
    .cons (encodable_of_signedVec rfl hb.fgu_pos hbigF) <| .cons (encodable_of_signedVec rfl hb.fgu_pos hbigG) .nil

/-- The secret key's uncoded wire form fits the SK window of a block whose storage was checked (R84). -/
theorem wireSk_length_le (hcoding : s.acfg.skCoding = .none) (h : storageFits s.build s.acfg.variant s.ps = true) :
    (wireSk s).length ≤ s.build.skCap := by
  have hbits := encoded_length (C := Config.collab) (o := s.build.bitOrder) (n := s.ps.n) (uncoded_keyParts hcoding)
    (show (keyParts s).length = [s.sk.f, s.sk.g, s.sk.bigF, s.sk.bigG].length from rfl)
  have htotal : s.ps.n * ((keyParts s).map ElemDesc.w).sum = 2 * s.ps.n * s.ps.fgBits + 2 * s.ps.n * s.ps.fguBits := by
    simp [keyParts]
    ring
  simp only [storageFits, Bool.and_eq_true, decide_eq_true_eq] at h
  obtain ⟨-, hcap⟩ := h
  rw [← packSk_eq_wireSk, packSk, pack, toBytes_length, show skSchema s.ps s.acfg = keyParts s from rfl, hbits, htotal]
  exact hcap

theorem skCap_le (h : s.build.wf = true) : s.build.skCap ≤ 65536 := by
  simp only [Build.wf, capOk, Bool.and_eq_true, decide_eq_true_eq] at h
  omega

/-- The SK window unpacks to the key STORE_SK wrote there (R71 - R73, R107). -/
theorem unpackWindow_storedKey (hcoding : s.acfg.skCoding = .none) (hwf : s.build.wf = true) (hmem : s.mem.wf)
    (hfit : (wireSk s).length ≤ s.build.skCap) (hkey : KeyInRange s.ps s.sk) :
    unpackWindow Config.collab (windowStore .sk (wireSk s) s) .sk (keyParts s)
      = some [s.sk.f, s.sk.g, s.sk.bigF, s.sk.bigG] := by
  have hcap := skCap_le hwf
  rw [unpackWindow_windowStore _ hmem hfit (by omega), ← packSk_eq_wireSk]
  exact unpack_pack (uncoded_keyParts hcoding) (encodable_key hwf hkey)

/-- LOAD_SK is started where STORE_SK has ended. -/
def loadAfterStore (s : State) : State := startCommand (encode .loadSk) (ended (windowStore .sk (wireSk s) s))

/-- LOAD_SK after STORE_SK installs the key that the stored window unpacks to, and ends without error (R105, R125). -/
theorem exec_loadAfterStore (hc : s.status.configured = true) (hs : s.silent = [])
    (hfit : (wireSk s).length ≤ s.build.skCap)
    (hkey : unpackWindow Config.collab (windowStore .sk (wireSk s) s) .sk (keyParts s)
      = some [s.sk.f, s.sk.g, s.sk.bigF, s.sk.bigG]) :
    ∃ u, exec .loadSk (loadAfterStore s) = .next u ∧ u.sk = s.sk ∧ u.status.err = false ∧ u.status.skValid = true := by
  have hlen : (loadAfterStore s).skLen.toNat ≤ s.build.skCap := (windowLen_windowStore_le .sk (wireSk s) s).trans hfit
  have hload := loadSkInstallsTheKey (loadAfterStore s) ⟨rfl, rfl⟩ hc hlen hs
  have hunpack : unpackWindow Config.collab (loadAfterStore s) .sk (keyParts (loadAfterStore s)) = _ := hkey
  rw [hunpack] at hload
  exact ⟨_, hload, rfl, rfl, rfl⟩

/-- Settles O33: STORE_SK leaves the wire form in the window, LOAD_SK installs what the window unpacks to. -/
theorem loadSkRestoresWhatStoreSkWrote : Obligations.LoadSkRestoresWhatStoreSkWrote := by
  intro s h hc hvalid hcoding hs hwf hmem hstorage hkey
  have hfit := wireSk_length_le hcoding hstorage
  have hstore := storeSkWritesTheWireForm s h hc hvalid hs
  rw [if_neg (not_lt.2 hfit)] at hstore
  obtain ⟨u, hload, hu⟩ := exec_loadAfterStore hc hs hfit (unpackWindow_storedKey hcoding hwf hmem hfit hkey)
  exact ⟨_, u, hstore, hload, hu⟩

end Sys2Proof.Proofs.KeyStores
end

section
/-! A command run with any collaborators, move by move (10_state.md R34 - R36; 20_memory.md R48): `exec` is the run with those
of the instance. -/

namespace Sys2Proof.Proofs.Runs

open Sys2Proof Sys2Proof.Machine Sys2Proof.Claims Sys2Proof.Proofs.Transitions Sys2Proof.Proofs.Configure
  Sys2Proof.Proofs.Waiting Sys2Proof.Proofs.KeyStores

variable {C : Collab} {i : Instr} {s t u : State}

/-- Command `i` with the collaborators `C`, to its end or to the state in which it waits (R36, R48). -/
def runWith (C : Collab) (i : Instr) (s : State) : Host.Outcome State Fault Refusal := runCommand C i (transition C i) s

theorem exec_eq_runWith (i : Instr) (s : State) : exec i s = runWith Config.collab i s := exec_eq_runCommand i s

theorem runWith_live (h : Live i s) :
    runWith C i s = .next (runSteps (whenAnswered C i (transition C i)) (enoughSteps s) s) :=
  if_pos (onPath_iff.2 ⟨h.busy, h.path⟩)

/-- Before FINISH a command whose collaborators answer makes its transition and runs on, to the same end (R36). -/
theorem runWith_move (h : Live i s) (hf : s.st ≠ .finish) (hmove : transition C i s = t) :
    Live i t ∧ runWith C i s = runWith C i t := by
  subst hmove
  have hlive : Live i (transition C i s) := ⟨(transition_busy C i s hf).trans h.busy, transition_path C i s h.path hf,
    (transition_keeps C i s).1.trans h.answers⟩
  refine ⟨hlive, ?_⟩
  rw [runWith_live h, runWith_live hlive, runSteps_move C i h.busy, whenAnswered_of_silent h.answers]

/-- A transition into FINISH and then the ending sequence are the command's end (R124). -/
theorem runWith_to_finish (h : Live i s) (hi : i ≠ .destroy) (hf : s.st ≠ .finish) (hmove : transition C i s = t)
    (hst : t.st = .finish) (hend : endCommand t = u) : runWith C i s = .next u := by
  obtain ⟨hlive, hrun⟩ := runWith_move h hf hmove
  rw [hrun, runWith_live hlive, runSteps_answered C i hlive.answers, enoughSteps_eq,
    runSteps_finish C i hlive.busy hst, if_neg hi, ← hend]
  rfl

/-- A command whose checks all pass goes on in the first state of its rule (R35, R122). -/
theorem runWith_atDispatch (h : AtDispatch s) (hs : s.silent = []) (hok : dispatchError i s = none) :
    Live i { s with st := firstState i } ∧ runWith C i s = runWith C i { s with st := firstState i } := by
  obtain ⟨hb, hst⟩ := h
  refine runWith_move ⟨hb, (onPath_iff.1 (onPath_dispatch hb hst)).2, hs⟩ (by rw [hst]; decide) ?_
  rw [transition_atDispatch C i hst, dispatchStep_ok hok]

/-! ### What the ending sequence scrubs -/

/-- `s` in FSM state `f`, with the words `x` in SCRATCH and the basis `b` in TBASIS: what a running command may hold of its own
(R30, R31). -/
def inState (f : Fsm) (x : Scratch) (b : Basis) (s : State) : State := { s with st := f, scratch := x, tbasis := b }

variable {f g : Fsm} {x : Scratch} {b : Basis}

@[simp] theorem inState_build : (inState f x b s).build = s.build := rfl
@[simp] theorem inState_acfg : (inState f x b s).acfg = s.acfg := rfl
@[simp] theorem inState_ps : (inState f x b s).ps = s.ps := rfl
@[simp] theorem inState_pk : (inState f x b s).pk = s.pk := rfl
@[simp] theorem inState_msgLen : (inState f x b s).msgLen = s.msgLen := rfl
@[simp] theorem message_inState : message (inState f x b s) = message s := rfl
@[simp] theorem unpackWindow_inState (win : Window) (schema : List ElemDesc) :
    unpackWindow C (inState f x b s) win schema = unpackWindow C s win schema := rfl
@[simp] theorem scratchVec_inState (slot : Slot) (len : Nat) :
    scratchVec (inState f x b s) slot len = slotVec s.build x slot len := rfl

@[simp] theorem windowStore_inState (win : Window) (bytes : List Byte) :
    windowStore win bytes (inState f x b s) = inState f x b (windowStore win bytes s) := by
  cases win <;> rfl

/-! The ending sequence leaves nothing of it (R124), whichever way the command's work ends (R125 - R128). -/

theorem endCommand_finishOk_inState : endCommand (finishOk (inState f x b s)) = ended s := rfl
theorem endCommand_raiseError_inState (e : ErrCode) : endCommand (raiseError e (inState f x b s)) = failed e s := rfl
theorem endCommand_accept_inState : endCommand (accept (inState f x b s)) = accepted s := rfl

end Sys2Proof.Proofs.Runs
end

section
/-! What the signing and verifying commands keep in SCRATCH and in the windows: centred samples, targets and decoded vectors are
held as they are, and a window store leaves the other windows' bytes (10_state.md R31; 20_memory.md R39). -/

namespace Sys2Proof.Proofs.Operands

open Sys2Proof Sys2Proof.Machine Sys2Proof.Claims Sys2Proof.Proofs.KeyRanges Sys2Proof.Proofs.KeygenRound
  Sys2Proof.Proofs.RingArithmetic Sys2Proof.Proofs.Scope Sys2Proof.Proofs.WireForms

variable {C : Collab} {s : State} {v : List Int}

/-! ### Residues and centred vectors -/

theorem q_pos_of_fits (h : Fits s) : 1 ≤ s.ps.q := by
  obtain ⟨-, -, hq, -, -⟩ := h
  exact hq

theorem k_le_of_fits (h : Fits s) : s.ps.k ≤ s.ps.n := by
  obtain ⟨-, hk, -, -, -⟩ := h
  exact hk

/-- Vectors of residues in [0, Q), of any length up to N, are held by SCRATCH as they are (R31). -/
theorem heldVec_residues {len : Nat} (h : Fits s) (hlen : v.length = len) (hle : len ≤ s.ps.n)
    (hv : ∀ x ∈ v, 0 ≤ x ∧ x < s.ps.q) : heldVec s.build v len = v := by
  have hq := (modulus_of_fits h).1
  refine heldVec_eq hlen (hle.trans h.1) ((Nat.le_add_left 1 _).trans (widths_of_fits h).1) fun x hx => ?_
  obtain ⟨hlo, hhi⟩ := hv x hx
  exact fitsWidth_of_lt_modulus h (by omega) hhi

theorem heldVec_publicInRange (h : Fits s) (hv : PublicInRange s.ps v) : heldVec s.build v s.ps.n = v :=
  heldVec_residues h hv.1 le_rfl hv.2

theorem natMod_mem {q : Nat} (hq : 1 ≤ q) (x : Nat) : 0 ≤ ((x % q : Nat) : Int) ∧ ((x % q : Nat) : Int) < q :=
  ⟨Int.natCast_nonneg _, by exact_mod_cast Nat.mod_lt x hq⟩

theorem emod_mem {q : Nat} (hq : 1 ≤ q) (x : Int) : 0 ≤ x % q ∧ x % q < q :=
  ⟨Int.emod_nonneg _ (by omega), Int.emod_lt_of_pos _ (by omega)⟩

/-- The plain target is a vector of residues (R75). -/
theorem roMap_inRange {ps : ParamSet} (hq : 1 ≤ ps.q) (oc : Oracle) (msg : List Byte) :
    PublicInRange ps (roMap C ps oc msg) :=
  ⟨vec_length .., forall_vec fun _ _ => natMod_mem hq _⟩

theorem roTag_mem {ps : ParamSet} (hq : 1 ≤ ps.q) (oc : Oracle) (msg : List Byte) (j : Nat) :
    0 ≤ coef (roTag C ps oc msg) j ∧ coef (roTag C ps oc msg) j < ps.q := by
  rw [roTag, coef_vec]
  split
  · exact natMod_mem hq _
  · omega

/-- The recovery target is a vector of residues (R78). -/
theorem recTarget_inRange {ps : ParamSet} (hq : 1 ≤ ps.q) (o : BitOrder) (oc : Oracle) (msg : List Byte) :
    PublicInRange ps (recTarget C o ps oc msg) := by
  refine ⟨vec_length .., forall_vec fun i _ => ?_⟩
  split
  · exact emod_mem hq _
  · exact roTag_mem hq oc msg _

/-- A reconstructed target is a vector of residues (R61, R115). -/
theorem normalize_inRange {ps : ParamSet} (hq : 1 ≤ ps.q) (v : List Int) : PublicInRange ps (Machine.normalize ps v) :=
  ⟨vec_length .., forall_vec fun _ _ => emod_mem hq _⟩

/-- A coefficient of a vector of residues is a residue, 0 past its end. -/
theorem coef_inRange {ps : ParamSet} (hq : 1 ≤ ps.q) (hv : PublicInRange ps v) (i : Nat) :
    0 ≤ coef v i ∧ coef v i < ps.q := by
  by_cases hi : i < v.length
  · exact hv.2 _ (coef_mem hi)
  · rw [show coef v i = 0 from List.getD_eq_default _ _ (by omega)]
    omega

/-- What a target recovers are residues (R80). -/
theorem recoverM1_mem {ps : ParamSet} (hq : 1 ≤ ps.q) (oc : Oracle) (v : List Int) :
    ∀ x ∈ recoverM1 C ps oc v, 0 ≤ x ∧ x < ps.q := forall_vec fun _ _ => emod_mem hq _

theorem recoverTag_mem {ps : ParamSet} (hq : 1 ≤ ps.q) (hv : PublicInRange ps v) :
    ∀ x ∈ recoverTag ps v, 0 ≤ x ∧ x < ps.q := forall_vec fun _ _ => coef_inRange hq hv _

/-- The keygen target is a vector of residues (R100). -/
theorem keygenTarget_inRange {ps : ParamSet} (hq : 1 ≤ ps.q) : PublicInRange ps (keygenTarget ps) :=
  ⟨vec_length .., forall_vec fun _ _ => ⟨by omega, by omega⟩⟩

/-- Reading a sample through its contract changes no centred value (R62; D56). -/
theorem center_contractSample (ps : ParamSet) (v : List Int) : center ps (contractSample ps v) = center ps v := by
  refine vec_congr fun i hi => centerInt_congr ?_
  rw [contractSample, coef_vec_lt _ hi, Int.tmod_def, Int.sub_mul_emod_self_left]

theorem qBits_pos_of_fits (h : Fits s) : 1 ≤ s.ps.qBits := by
  obtain ⟨-, -, hpos, hlt, -⟩ := h
  refine Nat.pos_of_ne_zero fun hzero => ?_
  rw [hzero] at hlt
  omega

/-- A centred vector is a vector of signed Q_BITS values (R62, R63). -/
theorem signedVec_center (h : Fits s) (v : List Int) : SignedVec s.ps.n s.ps.qBits (center s.ps v) := by
  obtain ⟨k, hk⟩ := Nat.exists_eq_add_one.2 (qBits_pos_of_fits h)
  obtain ⟨-, -, hpos, hlt, -⟩ := h
  refine signedVec_vec fun i _ => ?_
  obtain ⟨hlo, hhi⟩ := centerInt_mem hpos (coef v i)
  have hhalf : ((s.ps.q / 2 : Nat) : Int) < 2 ^ k := by
    rw [hk, pow_succ] at hlt
    exact_mod_cast show s.ps.q / 2 < 2 ^ k by omega
  rw [FitsWidth, hk, Nat.add_sub_cancel]
  omega

/-- Signed Q_BITS values are held by SCRATCH as they are (R31). -/
theorem heldVec_signedVec (h : Fits s) (hv : SignedVec s.ps.n s.ps.qBits v) : heldVec s.build v s.ps.n = v :=
  have hword := (widths_of_fits h).1
  heldVec_eq hv.1 h.1 ((Nat.le_add_left 1 _).trans hword) fun x hx =>
    FitsWidth.mono (hv.2 x hx) ((Nat.le_succ _).trans hword)

theorem heldVec_center (h : Fits s) (v : List Int) : heldVec s.build (center s.ps v) s.ps.n = center s.ps v :=
  heldVec_signedVec h (signedVec_center h v)

/-! ### Windows -/

/-- No address lies in two windows (R38, R39). -/
theorem not_inWindow_of_ne {b : Build} (h : b.wf = true) {win win' : Window} (hne : win' ≠ win) {a : Nat}
    (ha : InWindow b win' a) : ¬InWindow b win a := by
  have hcap := windowCap_le h win
  have hcap' := windowCap_le h win'
  unfold InWindow at *
  cases win <;> cases win' <;> first | exact absurd rfl hne | (simp only [windowBase] at *; omega)

/-- A window store leaves the bytes of another window (R39, R147). -/
theorem windowRead_windowStore_ne (hwf : s.build.wf = true) (hmem : s.mem.wf) {win win' : Window} (hne : win' ≠ win)
    {bytes : List Byte} (hfit : bytes.length ≤ windowCap s.build win) {n : Nat} (hn : n ≤ windowCap s.build win') :
    windowRead (windowStore win bytes s) win' n = windowRead s win' n := by
  refine List.map_congr_left fun k hk => readByte_windowStore_of_not_inWindow hmem hfit (not_inWindow_of_ne hwf hne ?_)
  rw [List.mem_range] at hk
  exact ⟨Nat.le_add_right .., by omega⟩

/-- A stored signature leaves the message (R74, R147). -/
theorem message_windowStore_sig (hwf : s.build.wf = true) (hmem : s.mem.wf) (hmsg : s.msgLen.toNat ≤ s.build.msgCap)
    {bytes : List Byte} (hfit : bytes.length ≤ s.build.sigCap) : message (windowStore .sig bytes s) = message s :=
  windowRead_windowStore_ne (win := .sig) (win' := .msg) hwf hmem nofun hfit hmsg

/-- A stored message is read back (R74, R147). -/
theorem message_windowStore_msg (hmem : s.mem.wf) {bytes : List Byte} (hfit : bytes.length ≤ s.build.msgCap)
    (hlen : bytes.length < 2 ^ 32) : message (windowStore .msg bytes s) = bytes := by
  have hl : (windowStore .msg bytes s).msgLen.toNat = bytes.length := by
    rw [show (windowStore .msg bytes s).msgLen = BitVec.ofNat 32 bytes.length from windowLen_windowStore .msg bytes s,
      BitVec.toNat_ofNat, Nat.mod_eq_of_lt hlen]
  rw [message, hl]
  exact windowRead_windowStore (win := .msg) hmem hfit

end Sys2Proof.Proofs.Operands
end

section
/-! SIGN and SIGN_REC from DISPATCH to their end, with any collaborators (45_sign.md R109, R110): the two share their way up to
the stored signature and differ in the target, in the number of vectors and in what follows the signature. -/

namespace Sys2Proof.Proofs.Signing

open Sys2Proof Sys2Proof.Machine Sys2Proof.Claims Sys2Proof.Proofs.Transitions Sys2Proof.Proofs.Waiting
  Sys2Proof.Proofs.KeygenRound Sys2Proof.Proofs.WireForms Sys2Proof.Proofs.Runs Sys2Proof.Proofs.Operands

variable {C : Collab} {i : Instr} {s : State} {r : List SampleDraw} {s1 s2 : List Int}

/-! ### The states on the way -/

/-- `i` is a signing command past its checks: SIGN in the plain and SIGN_REC in the recovery variant (R109, R110, R122). -/
def Signs (i : Instr) (s : State) : Prop :=
  (i = .sign ∧ SignReady .plain s) ∨ (i = .signRec ∧ SignReady .recovery s)

/-- The target of the command (R109, R110). -/
def targetOf (C : Collab) (i : Instr) (s : State) : List Int :=
  if i = .signRec then recTarget C s.build.bitOrder s.ps s.acfg.oracle (message s)
  else roMap C s.ps s.acfg.oracle (message s)

/-- The vectors of the signature (R109, R110). -/
def signedVectors (i : Instr) (ps : ParamSet) (s1 s2 : List Int) : List (List Int) :=
  if i = .signRec then [center ps s1, center ps s2] else [center ps s1]

/-- The state in which the command waits for its sample: the target in SCRATCH, in transient mode the basis built (R90). -/
def asking (C : Collab) (i : Instr) (s : State) : State :=
  inState .sgSample (putWords s.build .target (targetOf C i s) s.scratch)
    (if s.acfg.keep then s.tbasis else basisFor C s s.sk) s

/-- The words of SCRATCH once the sample is centred. -/
def sampleWords (C : Collab) (i : Instr) (s1 s2 : List Int) (s : State) : Scratch :=
  let x := putWords s.build .s1 (center s.ps s1) (asking C i s).scratch
  if i = .signRec then putWords s.build .s2 (center s.ps s2) x else x

/-- The state in which the command encodes its signature: one answer less, the basis released (R91). -/
def encoding (C : Collab) (i : Instr) (s1 s2 : List Int) (r : List SampleDraw) (s : State) : State :=
  inState .sgEncode (sampleWords C i s1 s2 s) (if s.acfg.keep then (asking C i s).tbasis else Basis.zero)
    { s with sampPort := r }

/-- The signature's bytes (R56, R57, R72). -/
def signature (C : Collab) (i : Instr) (s1 s2 : List Int) (s : State) : List Byte :=
  packSig C s (signedVectors i s.ps s1 s2)

/-! ### From DISPATCH to the sample -/

/-- GetBasis as one update (R90). -/
theorem getBasis_eq (C : Collab) (s : State) :
    getBasis C s = { s with tbasis := if s.acfg.keep then s.tbasis else basisFor C s s.sk } := by
  unfold getBasis
  split <;> rfl

theorem Signs.ready (h : Signs i s) : ∃ v, SignReady v s := h.elim (fun h => ⟨_, h.2⟩) fun h => ⟨_, h.2⟩

theorem Signs.fits (h : Signs i s) : Fits s := h.ready.elim fun _ h => h.1

theorem Signs.message_fits (h : Signs i s) : s.msgLen.toNat ≤ s.build.msgCap := by
  obtain ⟨v, -, -, -, -, -, -, hmsg, -⟩ := h.ready
  exact hmsg

theorem Signs.not_destroy (h : Signs i s) : i ≠ .destroy := by
  rcases h with ⟨rfl, -⟩ | ⟨rfl, -⟩ <;> decide

/-- A signing command that is ready passes DISPATCH (R122). -/
theorem Signs.dispatchError (h : Signs i s) : dispatchError i s = none := by
  rcases h with ⟨rfl, -, -, hc, hb, hv, hk, hm, -⟩ | ⟨rfl, -, -, hc, hb, hv, hk, hm, -⟩ <;>
    simp [Machine.dispatchError, configuredChecks, familyBuilt, neededVariant, keyPresent, inputWindows, lengthFits,
      windowLen, windowCap, hc, hb, hv, hk, hm]

/-- A signing command past its checks comes to ask for its sample (R90, R109, R110). -/
theorem Signs.run_to_sample (h : Signs i s) : Live i (asking C i s) ∧ runWith C i s = runWith C i (asking C i s) := by
  obtain ⟨v, -, hd, -, -, -, -, -, hs⟩ := h.ready
  obtain ⟨hfirst, hrun⟩ := runWith_atDispatch (C := C) hd hs h.dispatchError
  have htarget : transition C i { s with st := firstState i }
      = scratchPut .target (targetOf C i s) { s with st := .sgBasis } := by
    rcases h with ⟨rfl, -⟩ | ⟨rfl, -⟩ <;> rfl
  have hbasis : transition C i (scratchPut .target (targetOf C i s) { s with st := .sgBasis }) = asking C i s := by
    have hstep : signBasisStep C (scratchPut .target (targetOf C i s) { s with st := .sgBasis }) = asking C i s := by
      rw [signBasisStep, getBasis_eq]
      rfl
    rw [← hstep]
    rcases h with ⟨rfl, -⟩ | ⟨rfl, -⟩ <;> rfl
  have hne : ({ s with st := firstState i } : State).st ≠ .finish := by
    rcases h with ⟨rfl, -⟩ | ⟨rfl, -⟩ <;> exact nofun
  obtain ⟨hnext, hrun'⟩ := runWith_move hfirst hne htarget
  obtain ⟨hlast, hrun''⟩ := runWith_move hnext nofun hbasis
  exact ⟨hlast, hrun.trans (hrun'.trans hrun'')⟩

theorem Signs.transition_asking (h : Signs i s) :
    transition C i (asking C i s) = signSampleStep (decide (i = .signRec)) (asking C i s) := by
  rcases h with ⟨rfl, -⟩ | ⟨rfl, -⟩ <;> rfl

/-! ### The end without a signature -/

/-- A failed sample zeroes the SIG window and SIG_LEN (R109, R110). -/
theorem Signs.run_failed_sample (h : Signs i s) (hr : s.sampPort = .fail :: r) :
    runWith C i s = .next (failed .samplingFailure (windowStore .sig [] { s with sampPort := r })) := by
  obtain ⟨hlive, hrun⟩ := h.run_to_sample (C := C)
  have hmove : transition C i (asking C i s) = raiseError .samplingFailure (inState .sgSample (asking C i s).scratch
      (if s.acfg.keep then (asking C i s).tbasis else Basis.zero) (windowStore .sig [] { s with sampPort := r })) := by
    rw [h.transition_asking, signSampleStep, show (asking C i s).sampPort = _ from hr]
    simp only [signFail, windowZero_eq, releaseBasis_eq, ← windowStore_inState]
    rfl
  exact hrun.trans (runWith_to_finish hlive h.not_destroy nofun hmove rfl (endCommand_raiseError_inState ..))

/-! ### The signature -/

/-- The sample is centred and the basis released (R91, R109, R110). -/
theorem Signs.run_to_encode (h : Signs i s) (hr : s.sampPort = .ok s1 s2 :: r) :
    Live i (encoding C i s1 s2 r s) ∧ runWith C i s = runWith C i (encoding C i s1 s2 r s) := by
  obtain ⟨hlive, hrun⟩ := h.run_to_sample (C := C)
  have hmove : transition C i (asking C i s) = encoding C i s1 s2 r s := by
    rw [h.transition_asking, signSampleStep, show (asking C i s).sampPort = _ from hr]
    simp only [center_contractSample, releaseBasis_eq]
    rcases h with ⟨rfl, -⟩ | ⟨rfl, -⟩
    · rfl
    · rfl
  obtain ⟨hlive', hrun'⟩ := runWith_move hlive nofun hmove
  exact ⟨hlive', hrun.trans hrun'⟩

/-- The centred vectors in SCRATCH. -/
theorem slotVec_sampleWords (h : Fits s) : slotVec s.build (sampleWords C i s1 s2 s) .s1 s.ps.n = center s.ps s1
    ∧ slotVec s.build (sampleWords C .signRec s1 s2 s) .s2 s.ps.n = center s.ps s2 := by
  unfold sampleWords
  constructor
  · split <;> simp [slotVec_putWords, slotIndex, heldVec_center h]
  · simp [slotVec_putWords, slotIndex, heldVec_center h]

/-- What follows a stored signature: SIGN ends, SIGN_REC goes on to rewrite the message (R109, R110). -/
def afterSignature (i : Instr) (s : State) : State := if i = .signRec then { s with st := .sgCompact } else finishOk s

/-- SG_ENCODE takes the vectors from SCRATCH (R109, R110). -/
theorem Signs.transition_encoding (h : Signs i s) : transition C i (encoding C i s1 s2 r s)
    = signEncodeStep (signature C i s1 s2 s) (afterSignature i) (encoding C i s1 s2 r s) := by
  obtain ⟨h1, h2⟩ := slotVec_sampleWords (C := C) (i := i) (s1 := s1) (s2 := s2) h.fits
  rcases h with ⟨rfl, h⟩ | ⟨rfl, h⟩
  · show signEncodeStep (packSig C s [slotVec s.build (sampleWords C .sign s1 s2 s) .s1 s.ps.n]) finishOk _ = _
    rw [h1]
    rfl
  · show signEncodeStep (packSig C s [slotVec s.build (sampleWords C .signRec s1 s2 s) .s1 s.ps.n,
      slotVec s.build (sampleWords C .signRec s1 s2 s) .s2 s.ps.n]) (fun t => { t with st := .sgCompact }) _ = _
    rw [h1, h2]
    rfl

/-- A signature longer than SIG_CAP zeroes the SIG window and SIG_LEN (R109, R110). -/
theorem Signs.run_too_long (h : Signs i s) (hr : s.sampPort = .ok s1 s2 :: r)
    (hcap : s.build.sigCap < (signature C i s1 s2 s).length) :
    runWith C i s = .next (failed .functionFailure (windowStore .sig [] { s with sampPort := r })) := by
  obtain ⟨hlive, hrun⟩ := h.run_to_encode (C := C) hr
  have hmove := (h.transition_encoding (C := C) (s1 := s1) (s2 := s2) (r := r)).trans (if_pos hcap)
  rw [signFail, windowZero_eq, encoding, windowStore_inState] at hmove
  exact hrun.trans (runWith_to_finish hlive h.not_destroy nofun hmove rfl (endCommand_raiseError_inState ..))

/-- A signature that fits is stored (R109, R110). -/
theorem Signs.run_stored (h : Signs i s) (hr : s.sampPort = .ok s1 s2 :: r)
    (hcap : (signature C i s1 s2 s).length ≤ s.build.sigCap) :
    ∃ x b, Live i (encoding C i s1 s2 r s) ∧ runWith C i s = runWith C i (encoding C i s1 s2 r s)
      ∧ transition C i (encoding C i s1 s2 r s)
        = afterSignature i (inState .sgEncode x b (windowStore .sig (signature C i s1 s2 s) { s with sampPort := r })) := by
  obtain ⟨hlive, hrun⟩ := h.run_to_encode (C := C) hr
  have hmove := (h.transition_encoding (C := C) (s1 := s1) (s2 := s2) (r := r)).trans (if_neg (not_lt.2 hcap))
  rw [encoding, windowStore_inState] at hmove
  exact ⟨_, _, hlive, hrun, hmove⟩

/-- A signature that fits ends SIGN (R109). -/
theorem runWith_sign_stored (h : SignReady .plain s) (hr : s.sampPort = .ok s1 s2 :: r)
    (hcap : (signature C .sign s1 s2 s).length ≤ s.build.sigCap) :
    runWith C .sign s = .next (ended (windowStore .sig (signature C .sign s1 s2 s) { s with sampPort := r })) := by
  obtain ⟨x, b, hlive, hrun, hmove⟩ := Signs.run_stored (C := C) (.inl ⟨rfl, h⟩) hr hcap
  exact hrun.trans (runWith_to_finish hlive nofun nofun hmove rfl (endCommand_finishOk_inState ..))

/-- A signature that fits is stored, and SIGN_REC ends once the message is m2 (R110). -/
theorem runWith_signRec_stored (h : SignReady .recovery s) (hwf : s.build.wf = true) (hmem : s.mem.wf)
    (hr : s.sampPort = .ok s1 s2 :: r) (hcap : (signature C .signRec s1 s2 s).length ≤ s.build.sigCap) :
    runWith C .signRec s = .next (ended (windowStore .msg (compact s.build.bitOrder s.ps (message s))
      (windowStore .sig (signature C .signRec s1 s2 s) { s with sampPort := r }))) := by
  obtain ⟨x, b, hlive, hrun, hmove⟩ := Signs.run_stored (C := C) (.inr ⟨rfl, h⟩) hr hcap
  obtain ⟨hlive', hrun'⟩ := runWith_move hlive nofun hmove
  obtain ⟨-, -, -, -, -, -, hmsg, -⟩ := h
  have hmessage := message_windowStore_sig (s := { s with sampPort := r }) hwf hmem hmsg hcap
  have hcompact : ∀ t : State, signCompactStep (inState .sgCompact x b t)
      = finishOk (inState .sgCompact x b (windowStore .msg (compact t.build.bitOrder t.ps (message t)) t)) := fun t => by
    rw [← windowStore_inState]
    rfl
  have hmove' := hcompact (windowStore .sig (signature C .signRec s1 s2 s) { s with sampPort := r })
  rw [hmessage, windowStore_build, windowStore_ps] at hmove'
  exact hrun.trans (hrun'.trans (runWith_to_finish hlive' nofun nofun hmove' rfl (endCommand_finishOk_inState ..)))

end Sys2Proof.Proofs.Signing
end

section
/-! SIGN and SIGN_REC with the collaborators of the instance: the stored wire forms, the request to the sampler, and the matrix B
(45_sign.md R109, R110; 42_basis.md R86; 43_keygen.md R99, R100). -/

namespace Sys2Proof.Proofs.SigningRules

open Sys2Proof Sys2Proof.Machine Sys2Proof.Claims Sys2Proof.Proofs.Transitions Sys2Proof.Proofs.Waiting
  Sys2Proof.Proofs.KeyRanges Sys2Proof.Proofs.KeygenRound Sys2Proof.Proofs.WireForms Sys2Proof.Proofs.Runs
  Sys2Proof.Proofs.Operands Sys2Proof.Proofs.Signing Sys2Proof.Proofs.RingArithmetic Sys2Proof.Proofs.BasisOfKey

variable {i : Instr} {s : State}

/-! ### The stored signature -/

theorem packSig_eq_wireSig (s : State) (vs : List (List Int)) : packSig Config.collab s vs = wireSig s vs := by
  simp only [packSig, wireSig, pack, List.flatMap_def]
  rw [show encodeElem Config.collab s.build.bitOrder s.ps.n (sigElem s.ps s.acfg) = _ from
    funext fun v => encodeElem_eq_elementBits ..]
  rfl

theorem signature_sign (s1 s2 : List Int) (s : State) :
    signature Config.collab .sign s1 s2 s = wireSig s [center s.ps s1] := packSig_eq_wireSig ..

theorem signature_signRec (s1 s2 : List Int) (s : State) :
    signature Config.collab .signRec s1 s2 s = wireSig s [center s.ps s1, center s.ps s2] := packSig_eq_wireSig ..

/-- Settles O34: SG_SAMPLE decides on the sample, SG_ENCODE on the length of its wire form. -/
theorem signStoresTheCentredSample : Obligations.SignStoresTheCentredSample := by
  intro s d r h hr
  have hsign : Signs .sign s := .inl ⟨rfl, h⟩
  rw [exec_eq_runWith]
  cases d with
  | fail => exact hsign.run_failed_sample hr
  | ok s1 s2 =>
    simp only [← signature_sign s1 s2 s]
    split <;> rename_i hcap
    · exact hsign.run_too_long hr hcap
    · exact runWith_sign_stored h hr (not_lt.1 hcap)

/-- Settles O35: as for SIGN, and SG_COMPACT finds the message as it was, since a stored signature leaves it. -/
theorem signRecStoresAndCompacts : Obligations.SignRecStoresAndCompacts := by
  intro s d r h hwf hmem hr
  have hsign : Signs .signRec s := .inr ⟨rfl, h⟩
  rw [exec_eq_runWith]
  cases d with
  | fail => exact hsign.run_failed_sample hr
  | ok s1 s2 =>
    simp only [← signature_signRec s1 s2 s]
    split <;> rename_i hcap
    · exact hsign.run_too_long hr hcap
    · exact runWith_signRec_stored h hwf hmem hr (not_lt.1 hcap)

end Sys2Proof.Proofs.SigningRules
end

section
/-! The matrix B of the NTRU layout, entry by entry (42_basis.md R86): row i of a block is x^i times the block's polynomial. -/

namespace Sys2Proof.Proofs.BasisMatrix

open Sys2Proof Sys2Proof.Machine Sys2Proof.Claims Sys2Proof.Proofs.KeyRanges Sys2Proof.Proofs.RingArithmetic
  Sys2Proof.Proofs.BitStreams

variable {rp : RingPoly} {n i c : Nat} {p q : List Int} {k : SecretKey}

/-! ### Powers of x times a polynomial -/

/-- The lower coefficients of RING_POLY (R64, R86). -/
def lowerCoefs : RingPoly → List Int
  | .negacyclic => [1]
  | .monic low => low

/-- x^i·p in the ring (R86). -/
def powX (rp : RingPoly) (n i : Nat) (p : List Int) : List Int := (mulX rp n)^[i] p

theorem powX_succ : powX rp n (i + 1) p = mulX rp n (powX rp n i p) := Function.iterate_succ_apply' ..

/-- One product by x: the shift, with the wrapped coefficient times the lower coefficients taken off (R86). -/
theorem coef_mulX (hc : c < n) : coef (mulX rp n p) c =
    (if c = 0 then 0 else coef p (c - 1)) - coef p (n - 1) * coef (lowerCoefs rp) c := by
  cases rp with
  | monic low => exact coef_vec_lt _ hc
  | negacyclic =>
    rw [mulX, coef_vec_lt _ hc]
    cases c <;> simp [lowerCoefs, coef]

/-- For x^N + 1, x^i·p is the shift by i with wrapped coefficients negated (R86). -/
theorem coef_powX_negacyclic (hi : i < n) (hc : c < n) : coef (powX .negacyclic n i p) c =
    if i ≤ c then coef p (c - i) else -coef p (c + n - i) := by
  induction i generalizing c with
  | zero => rfl
  | succ i ih =>
    rw [powX_succ, mulX, coef_vec_lt _ hc]
    by_cases h0 : c = 0
    · rw [if_pos h0, ih (by omega) (by omega), if_pos (by omega), if_neg (by omega)]
      congr 2
      omega
    · rw [if_neg h0, ih (by omega) (by omega)]
      by_cases hle : i + 1 ≤ c
      · rw [if_pos (by omega), if_pos hle]
        congr 1
        omega
      · rw [if_neg (by omega), if_neg hle]
        congr 2
        omega

/-! ### The rows -/

theorem ringRows_eq (r : Nat) : ringRows rp n r p = (List.range r).map fun i => vec n (coef (powX rp n i p)) := by
  induction r generalizing p with
  | zero => rfl
  | succ r ih =>
    rw [ringRows, ih, List.range_succ_eq_map, List.map_cons, List.map_map]
    rfl

/-- Row i of [A(p) -A(q)]. -/
def blockRowAt (rp : RingPoly) (n : Nat) (p q : List Int) (i : Nat) : List Int :=
  vec n (coef (powX rp n i p)) ++ vec n fun c => -coef (powX rp n i q) c

theorem blockRow_eq : blockRow rp n p q = (List.range n).map (blockRowAt rp n p q) := by
  rw [blockRow, ringRows_eq, ringRows_eq, List.zipWith_map, List.zipWith_self]
  refine List.map_congr_left fun i _ => ?_
  rw [blockRowAt, vec, vec, vec, List.map_map]
  rfl

theorem blockRowAt_length : (blockRowAt rp n p q i).length = 2 * n := by
  rw [blockRowAt, List.length_append, vec_length, vec_length]
  omega

theorem coef_blockRowAt (hc : c < n) : coef (blockRowAt rp n p q i) c = coef (powX rp n i p) c
    ∧ coef (blockRowAt rp n p q i) (n + c) = -coef (powX rp n i q) c := by
  unfold coef blockRowAt
  rw [List.getD_append _ _ _ _ (by rwa [vec_length]), List.getD_append_right _ _ _ _ (by rw [vec_length]; omega),
    vec_length, Nat.add_sub_cancel_left]
  exact ⟨coef_vec_lt _ hc, coef_vec_lt _ hc⟩

/-- The rows of B in the NTRU layout (R86). -/
def basisRows (rp : RingPoly) (n : Nat) (k : SecretKey) : List (List Int) :=
  blockRow rp n k.g k.f ++ blockRow rp n k.bigG k.bigF

theorem basisRows_length : (basisRows rp n k).length = 2 * n := by
  simp only [basisRows, blockRow_eq, List.length_append, List.length_map, List.length_range]
  omega

theorem basisRows_row_length : ∀ row ∈ basisRows rp n k, row.length = 2 * n := by
  intro row hrow
  simp only [basisRows, blockRow_eq, List.mem_append, List.mem_map] at hrow
  obtain ⟨i, -, rfl⟩ | ⟨i, -, rfl⟩ := hrow <;> exact blockRowAt_length

theorem getD_basisRows (hi : i < n) : (basisRows rp n k).getD i [] = blockRowAt rp n k.g k.f i
    ∧ (basisRows rp n k).getD (n + i) [] = blockRowAt rp n k.bigG k.bigF i := by
  rw [basisRows, blockRow_eq, blockRow_eq, List.getD_append _ _ _ _ (by simpa using hi),
    List.getD_append_right _ _ _ _ (by simp), List.length_map, List.length_range, Nat.add_sub_cancel_left]
  exact ⟨getD_map_range _ _ hi, getD_map_range _ _ hi⟩

/-- Every entry of B (R86). -/
theorem entry_basisRows (hi : i < n) (hc : c < n) :
    entry (basisRows rp n k) i c = coef (powX rp n i k.g) c
      ∧ entry (basisRows rp n k) i (n + c) = -coef (powX rp n i k.f) c
      ∧ entry (basisRows rp n k) (n + i) c = coef (powX rp n i k.bigG) c
      ∧ entry (basisRows rp n k) (n + i) (n + c) = -coef (powX rp n i k.bigF) c := by
  obtain ⟨hupper, hlower⟩ := getD_basisRows (rp := rp) (k := k) hi
  unfold entry
  rw [hupper, hlower]
  obtain ⟨hg, hf⟩ := coef_blockRowAt (rp := rp) (p := k.g) (q := k.f) (i := i) hc
  obtain ⟨hG, hF⟩ := coef_blockRowAt (rp := rp) (p := k.bigG) (q := k.bigF) (i := i) hc
  exact ⟨hg, hf, hG, hF⟩

/-- Each of the four blocks is x^i·p row by row, or its negative. -/
theorem exists_block (rp : RingPoly) (n : Nat) (k : SecretKey) {half block : Nat} (hh : half ∈ [0, n])
    (hb : block ∈ [0, n]) : ∃ (e : Int) (p : List Int), ∀ i < n, ∀ c < n,
      entry (basisRows rp n k) (half + i) (block + c) = e * coef (powX rp n i p) c := by
  have hentry (i : Nat) (hi : i < n) (c : Nat) (hc : c < n) := entry_basisRows (rp := rp) (k := k) hi hc
  rw [List.mem_pair] at hh hb
  rcases hh with rfl | rfl <;> rcases hb with rfl | rfl
  · exact ⟨1, k.g, fun i hi c hc => by simp [hentry i hi c hc]⟩
  · exact ⟨-1, k.f, fun i hi c hc => by simp [hentry i hi c hc]⟩
  · exact ⟨1, k.bigG, fun i hi c hc => by simp [hentry i hi c hc]⟩
  · exact ⟨-1, k.bigF, fun i hi c hc => by simp [hentry i hi c hc]⟩

/-- Each further row is x times the one above it, in every block (R86). -/
theorem entry_basisRows_succ {half block : Nat} (hh : half ∈ [0, n]) (hb : block ∈ [0, n]) (hi : i + 1 < n) (hc : c < n) :
    entry (basisRows rp n k) (half + i + 1) (block + c) =
      (if c = 0 then 0 else entry (basisRows rp n k) (half + i) (block + c - 1))
        - entry (basisRows rp n k) (half + i) (block + n - 1) * coef (lowerCoefs rp) c := by
  obtain ⟨e, p, hblock⟩ := exists_block rp n k hh hb
  have habove : (if c = 0 then 0 else entry (basisRows rp n k) (half + i) (block + c - 1))
      = e * if c = 0 then 0 else coef (powX rp n i p) (c - 1) := by
    split
    · rw [mul_zero]
    · rw [Nat.add_sub_assoc (by omega), hblock i (by omega) _ (by omega)]
  rw [habove, Nat.add_sub_assoc (by omega), hblock i (by omega) _ (by omega), Nat.add_assoc, hblock _ hi c hc, powX_succ,
    coef_mulX hc]
  ring

/-- The rows of B form the matrix of R86. -/
theorem isBasisMatrix_basisRows (rp : RingPoly) (hn : 1 ≤ n) (k : SecretKey) :
    IsBasisMatrix rp n k (basisRows rp n k) := by
  refine ⟨basisRows_length, basisRows_row_length, fun c hc => entry_basisRows (i := 0) hn hc,
    fun i hi half hh block hb c hc => ?_, ?_⟩
  · rw [entry_basisRows_succ hh hb hi hc]
    cases rp <;> rfl
  · rintro rfl i hi c hc
    simp only [entry_basisRows hi hc, coef_powX_negacyclic hi hc, and_self]

end Sys2Proof.Proofs.BasisMatrix
end

section
/-! The request to the sampler, and the command that waits for its answer (20_memory.md R48; 42_basis.md R90; 43_keygen.md R99,
R100; 45_sign.md R109, R110). -/

namespace Sys2Proof.Proofs.SamplerRequests

open Sys2Proof Sys2Proof.Machine Sys2Proof.Claims Sys2Proof.Proofs.Transitions Sys2Proof.Proofs.Waiting
  Sys2Proof.Proofs.KeyRanges Sys2Proof.Proofs.KeygenRound Sys2Proof.Proofs.Runs Sys2Proof.Proofs.Operands
  Sys2Proof.Proofs.Signing Sys2Proof.Proofs.RingArithmetic Sys2Proof.Proofs.BasisMatrix

variable {i : Instr} {s : State} {c : Candidate} {g : List GenDraw}

/-! ### The signing commands -/

/-- The targets the statements write out are the model's (R75, R78). -/
theorem roMap_eq_plainTarget (C : Collab) (s : State) (msg : List Byte) :
    roMap C s.ps s.acfg.oracle msg = plainTarget C s msg := rfl

theorem recTarget_eq_recoveryTarget (C : Collab) (s : State) (msg : List Byte) :
    recTarget C s.build.bitOrder s.ps s.acfg.oracle msg = recoveryTarget C s msg := by
  refine vec_congr fun i _ => ?_
  split <;> rename_i hi
  · rw [mixTag, coef_vec_lt _ hi]
    rfl
  · rfl

/-- In cache mode a valid key has its basis, in transient mode it has been built: the same triple (R29, R90). -/
theorem currentBasis_asking (h : Signs i s) (hinv : BasisInv s) :
    currentBasis (asking Config.collab i s) = basisFor Config.collab s s.sk := by
  obtain ⟨v, -, ⟨-, hst⟩, -, -, -, hkey, -, -⟩ := h.ready
  obtain ⟨hvalid, -, -, -, hcached⟩ := hinv
  cases hkeep : s.acfg.keep with
  | false => simp [currentBasis, asking, inState, hkeep]
  | true =>
    have hbasis := (hcached hkeep hkey).resolve_right (by simp [hst])
    simpa [currentBasis, asking, inState, hkeep] using (hvalid hbasis).2.2

theorem targetOf_inRange (C : Collab) (h : Signs i s) : PublicInRange s.ps (targetOf C i s) := by
  have hq := q_pos_of_fits h.fits
  unfold targetOf
  split
  · exact recTarget_inRange hq ..
  · exact roMap_inRange hq ..

/-- What the sampler is asked (R48, R109, R110). -/
theorem samplerRequest_asking (h : Signs i s) (hinv : BasisInv s) : samplerRequest (asking Config.collab i s) = some
    { basis := basisFor Config.collab s s.sk, target := targetOf Config.collab i s, sigma := s.ps.signSigma,
      two := decide (i = .signRec), prec := s.acfg.sampPrec, impl := s.acfg.sampImpl } := by
  have htarget : scratchVec (asking Config.collab i s) .target s.ps.n = targetOf Config.collab i s := by
    rw [asking, scratchVec_inState, slotVec_putWords, if_pos rfl, heldVec_publicInRange h.fits (targetOf_inRange _ h)]
  have htwo : decide (s.acfg.variant = .recovery) = decide (i = .signRec) := by
    rcases h with ⟨rfl, -, -, -, -, hv, -⟩ | ⟨rfl, -, -, -, -, hv, -⟩ <;> simp [hv]
  rw [← currentBasis_asking h hinv, ← htarget, ← htwo]
  rfl

/-- Without an answer a signing command holds where it asks, and goes on from there as with the answer listed from its start
(R48). -/
theorem signing_holds (h : Signs i s) (hs : s.sampPort = []) :
    exec i s = .next (asking Config.collab i s) ∧ ResumesFrom i s (asking Config.collab i s) := by
  obtain ⟨hlive, hrun⟩ := h.run_to_sample (C := Config.collab)
  constructor
  · rw [exec_eq_runWith, hrun, ← exec_eq_runWith]
    refine exec_of_fixed (onPath_iff.2 ⟨hlive.busy, hlive.path⟩) ?_
    rw [whenAnswered_of_silent hlive.answers, h.transition_asking, signSampleStep, show (asking _ i s).sampPort = _ from hs]
  · intro d r k
    have hlater : Signs i { s with sampPort := d :: r, turn := k } := h
    rw [exec_eq_runWith, exec_eq_runWith, (hlater.run_to_sample (C := Config.collab)).2]
    rfl

/-! ### KEYGEN -/

/-- The state in which KEYGEN waits for its sample (R97, R99). -/
def askingCandidate (c : Candidate) (g : List GenDraw) (s : State) : State := kgBasisStep Config.collab (drawn c g s)

theorem askingCandidate_build : (askingCandidate c g s).build = s.build := kgBasisStep_build ..
theorem askingCandidate_acfg : (askingCandidate c g s).acfg = s.acfg := kgBasisStep_acfg ..
theorem askingCandidate_ps : (askingCandidate c g s).ps = s.ps := ps_congr askingCandidate_build askingCandidate_acfg

/-- The basis that KG_BASIS has built, in cache mode in BASIS and in transient mode in TBASIS (R89, R99). -/
theorem currentBasis_kgBasisStep (C : Collab) (s : State) :
    currentBasis (kgBasisStep C s) = basisFor C s (candidateKey s) := by
  rw [currentBasis, kgBasisStep_acfg, kgBasisStep, holdBasis_eq]
  cases s.acfg.keep <;> simp

theorem currentBasis_askingCandidate (h : Fits s) : currentBasis (askingCandidate c g s) = candidateBasis s c := by
  rw [askingCandidate, currentBasis_kgBasisStep, (candidate_drawn h).1]
  rfl

theorem target_askingCandidate (h : Fits s) :
    scratchVec (askingCandidate c g s) .target s.ps.n = List.replicate s.ps.n ((s.ps.q / 2 : Nat) : Int) := by
  have hscratch : (askingCandidate c g s).scratch = putWords s.build .target (keygenTarget s.ps) (drawn c g s).scratch :=
    kgBasisStep_scratch ..
  rw [scratchVec, askingCandidate_build, hscratch, slotVec_putWords, if_pos rfl,
    heldVec_publicInRange h (keygenTarget_inRange (q_pos_of_fits h)), keygenTarget, vec, List.map_const', List.length_range]

/-- What the sampler is asked (R48, R99, R100). -/
theorem samplerRequest_askingCandidate (h : Fits s) : samplerRequest (askingCandidate c g s) = some
    { basis := candidateBasis s c, target := List.replicate s.ps.n ((s.ps.q / 2 : Nat) : Int),
      sigma := 2 / (candidateBasis s c).invNorm.getD 0 0, two := false, prec := s.acfg.sampPrec,
      impl := s.acfg.sampImpl } := by
  rw [← currentBasis_askingCandidate (g := g) h, ← target_askingCandidate (c := c) (g := g) h,
    ← askingCandidate_acfg (c := c) (g := g), ← askingCandidate_ps (c := c) (g := g)]
  rfl

/-- Answers of the sampler and turns that come later leave the state in which KEYGEN asks as it is (R48). -/
theorem askingCandidate_later (r : List SampleDraw) (k : Nat) : askingCandidate c g { s with sampPort := r, turn := k }
    = { askingCandidate c g s with sampPort := r, turn := k } := by
  simp only [askingCandidate, kgBasisStep, holdBasis_eq]
  rfl

/-- KEYGEN past its checks with a candidate comes to ask for a sample (R97, R99). -/
theorem exec_keygen_to_sample (h : Fits s) (hd : AtDispatch s) (hc : s.status.configured = true)
    (hk : s.build.keygen = true) (hs : s.silent = []) (hg : s.genPort = .cand c :: g) :
    Live .keygen (askingCandidate c g s) ∧ exec .keygen s = exec .keygen (askingCandidate c g s) := by
  have hgen : Generating c g { s with st := .kgGenerate } := .intro h hd.1 rfl hs hg
  obtain ⟨hlive, hexec⟩ := exec_to_kgSample hgen
  exact ⟨hlive, (exec_keygen_atDispatch hd hc hk).trans hexec⟩

/-- Without an answer KEYGEN holds where it asks, and goes on from there as with the answer listed from its start (R48). -/
theorem keygen_holds (h : Fits s) (hd : AtDispatch s) (hc : s.status.configured = true) (hk : s.build.keygen = true)
    (hs : s.silent = []) (hg : s.genPort = .cand c :: g) (hr : s.sampPort = []) :
    exec .keygen s = .next (askingCandidate c g s) ∧ (askingCandidate c g s).status.busy = true
      ∧ ResumesFrom .keygen s (askingCandidate c g s) := by
  obtain ⟨hlive, hexec⟩ := exec_keygen_to_sample h hd hc hk hs hg
  refine ⟨?_, hlive.busy, fun d r k => ?_⟩
  · have hport : (askingCandidate c g s).sampPort = [] := sampPort_kgBasisStep.trans hr
    have hwait : transition Config.collab .keygen (askingCandidate c g s) = askingCandidate c g s := by
      rw [show transition Config.collab .keygen (askingCandidate c g s) = kgSampleStep (askingCandidate c g s) from
        transition_kgSample, kgSampleStep, hport]
    rw [hexec]
    exact exec_of_fixed (onPath_iff.2 ⟨hlive.busy, hlive.path⟩) ((whenAnswered_of_silent hlive.answers).trans hwait)
  · rw [← askingCandidate_later]
    exact (exec_keygen_to_sample (s := { s with sampPort := d :: r, turn := k }) h hd hc hk hs hg).2.symm

/-! ### The statement -/

/-- Settles O36: each command comes to the state in which it asks, holds there, and goes on as from its start; the rows of the
basis in the NTRU layout are those of `isBasisMatrix_basisRows`. -/
theorem samplerIsAskedAsTheRulesSay : Obligations.SamplerIsAskedAsTheRulesSay := by
  refine ⟨fun s hinv hr => ⟨fun h => ?_, fun h => ?_, fun c g h hd hc hk hs hg => ?_⟩, fun s k hlayout hn => ?_⟩
  · have hsign : Signs .sign s := .inl ⟨rfl, h⟩
    obtain ⟨hexec, hresume⟩ := signing_holds hsign hr
    exact ⟨_, hexec, h.2.1.1, rfl, samplerRequest_asking hsign hinv, hresume⟩
  · have hsign : Signs .signRec s := .inr ⟨rfl, h⟩
    obtain ⟨hexec, hresume⟩ := signing_holds hsign hr
    rw [← recTarget_eq_recoveryTarget]
    exact ⟨_, hexec, h.2.1.1, rfl, samplerRequest_asking hsign hinv, hresume⟩
  · obtain ⟨hexec, hbusy, hresume⟩ := keygen_holds h hd hc hk hs hg hr
    exact ⟨_, hexec, hbusy, rfl, samplerRequest_askingCandidate h, hresume⟩
  · have hrows : (basisFor Config.collab s k).rows = basisRows s.build.ringPoly s.ps.n k := by
      rw [basisFor, buildBasis, expand, hlayout]
      rfl
    rw [hrows]
    exact isBasisMatrix_basisRows _ hn k

end Sys2Proof.Proofs.SamplerRequests
end

section
/-! The ring product modulo Q sees residues only, so that centring a signature changes neither the verifier's second vector nor
the reconstructed target (40_helpers.md R62, R64; 45_sign.md R113). -/

namespace Sys2Proof.Proofs.RingCongruence

open Sys2Proof Sys2Proof.Machine Sys2Proof.Claims Sys2Proof.Proofs.RingArithmetic

variable {ps : ParamSet} {a b b' s1 s2 : List Int} {n : Nat} {q : Int}

/-! ### Congruent factors -/

theorem sumTo_modEq {f g : Nat → Int} (h : ∀ i < n, f i ≡ g i [ZMOD q]) : sumTo n f ≡ sumTo n g [ZMOD q] :=
  Int.ModEq.listSum_map fun i hi => h i (List.mem_range.1 hi)

theorem vec_modEq {f g : Nat → Int} (h : ∀ i < n, f i ≡ g i [ZMOD q]) (i : Nat) :
    coef (vec n f) i ≡ coef (vec n g) i [ZMOD q] := by
  rw [coef_vec, coef_vec]
  split
  · exact h i ‹_›
  · rfl

theorem negacyclicCoef_modEq (h : ∀ i < n, coef b i ≡ coef b' i [ZMOD q]) {i : Nat} (hi : i < n) :
    negacyclicCoef n a b i ≡ negacyclicCoef n a b' i [ZMOD q] := by
  refine sumTo_modEq fun j hj => ?_
  split
  · exact (h _ (by omega)).mul_left _
  · exact ((h _ (by omega)).mul_left _).neg

theorem polyProduct_modEq (h : ∀ i < n, coef b i ≡ coef b' i [ZMOD q]) (i : Nat) :
    coef (polyProduct n a b) i ≡ coef (polyProduct n a b') i [ZMOD q] := by
  refine vec_modEq (fun k _ => sumTo_modEq fun j hj => ?_) i
  split
  · exact (h _ (by omega)).mul_left _
  · rfl

theorem polyReduce_modEq {low : List Int} {t : Nat} (h : ∀ i, coef b i ≡ coef b' i [ZMOD q]) (i : Nat) :
    coef (polyReduce n low t b) i ≡ coef (polyReduce n low t b') i [ZMOD q] := by
  induction t generalizing b b' with
  | zero => exact h i
  | succ t ih =>
    refine ih fun k => vec_modEq (fun j _ => (h j).sub ?_) k
    split
    · exact (h _).mul_right _
    · rfl

/-- The ring product depends on its factor's residues only, for either form of RING_POLY (R64). -/
theorem ringMul_congr (rp : RingPoly) (h : ∀ i < ps.n, coef b i ≡ coef b' i [ZMOD ps.q]) :
    ringMul rp ps a b = ringMul rp ps a b' := by
  cases rp with
  | negacyclic => exact vec_congr fun i hi => negacyclicCoef_modEq h hi
  | monic low => exact vec_congr fun i _ => polyReduce_modEq (polyProduct_modEq h) i

theorem center_modEq (ps : ParamSet) (v : List Int) : ∀ i < ps.n, coef (center ps v) i ≡ coef v i [ZMOD ps.q] := by
  intro i hi
  rw [center, coef_vec_lt _ hi]
  exact centerInt_emod ..

theorem ringMul_center (rp : RingPoly) (ps : ParamSet) (a v : List Int) : ringMul rp ps a (center ps v) = ringMul rp ps a v :=
  ringMul_congr rp (center_modEq ps v)

/-! ### The verifier's vectors -/

/-- The target reconstructed from centred vectors is that of the vectors (R115). -/
theorem reconstruct_center (b : Build) (ps : ParamSet) (h s1 s2 : List Int) :
    reconstruct b ps h (center ps s1) (center ps s2)
      = Machine.normalize ps (vecAdd ps.n (ringMul b.ringPoly ps h s1) s2) := by
  refine vec_congr fun i hi => ?_
  rw [ringMul_center, vecAdd, vecAdd, coef_vec_lt _ hi, coef_vec_lt _ hi]
  exact (center_modEq ps s2 i hi).add_left _

/-- Where h·s1 + s2 is the target modulo Q, the plain verifier computes the centred s2 (R113, R114). -/
theorem verifyS2_center {b : Build} {h c : List Int}
    (hc : Machine.normalize ps (vecAdd ps.n (ringMul b.ringPoly ps h s1) s2) = c) :
    verifyS2 b ps h c (center ps s1) = center ps s2 := by
  refine vec_congr fun i hi => centerInt_congr ?_
  have htarget : coef c i ≡ coef (ringMul b.ringPoly ps h s1) i + coef s2 i [ZMOD ps.q] := by
    rw [← hc, Machine.normalize, vecAdd, coef_vec_lt _ hi, coef_vec_lt _ hi]
    exact Int.mod_modEq ..
  rw [ringMul_center, vecSub, coef_vec_lt _ hi]
  have hdiff := htarget.sub_right (coef (ringMul b.ringPoly ps h s1) i)
  rwa [add_sub_cancel_left] at hdiff

end Sys2Proof.Proofs.RingCongruence
end

section
/-! VERIFY and VERIFY_REC of a signature that passes every check, from DISPATCH to the acceptance, with any collaborators
(46_verify.md R114, R115). -/

namespace Sys2Proof.Proofs.Acceptances

open Sys2Proof Sys2Proof.Machine Sys2Proof.Claims Sys2Proof.Proofs.Transitions Sys2Proof.Proofs.Waiting
  Sys2Proof.Proofs.KeyRanges Sys2Proof.Proofs.KeygenRound Sys2Proof.Proofs.Runs Sys2Proof.Proofs.Operands
  Sys2Proof.Proofs.RingArithmetic

variable {C : Collab} {s : State} {f : Fsm} {x : Scratch} {b : Basis} {s1 s2 t m1 t2 c : List Int}

/-! ### VERIFY, state by state -/

theorem dispatchError_verify (h : VerifyReady .plain s) : dispatchError .verify s = none := by
  obtain ⟨-, -, hc, hb, hv, hk, hm, hl, -⟩ := h
  simp [dispatchError, configuredChecks, familyBuilt, neededVariant, keyPresent, inputWindows, lengthFits, windowLen,
    windowCap, hc, hb, hv, hk, hm, hl]

/-- VF_DECODE of a signature that decodes (R114). -/
theorem verifyDecodeStep_decoded (hu : unpackWindow C s .sig [sigElem s.ps s.acfg] = some [s1]) :
    verifyDecodeStep C (inState f x b s) = inState .vfOracle (putWords s.build .s1 s1 x) b s := by
  rw [verifyDecodeStep, inState_ps, inState_acfg, unpackWindow_inState, hu]
  rfl

/-- VF_NORM of a pair below the bound (R114). -/
theorem verifyNormStep_accepts (hs1 : slotVec s.build x .s1 s.ps.n = s1) (hc : slotVec s.build x .target s.ps.n = c)
    (hnorm : normOk s.ps s1 (verifyS2 s.build s.ps s.pk c s1) = true) :
    verifyNormStep (inState f x b s) = accept (inState f x b s) := by
  simp only [verifyNormStep, scratchVec_inState, inState_ps, inState_build, inState_pk, hs1, hc]
  exact if_pos hnorm

/-- The words of SCRATCH in VF_NORM of VERIFY: the signature and the target. -/
def normWords (s1 c : List Int) (s : State) : Scratch := putWords s.build .target c (putWords s.build .s1 s1 s.scratch)

theorem slotVec_normWords (h : Fits s) (hs1 : SignedVec s.ps.n s.ps.qBits s1) (hc : PublicInRange s.ps c) :
    slotVec s.build (normWords s1 c s) .s1 s.ps.n = s1 ∧ slotVec s.build (normWords s1 c s) .target s.ps.n = c := by
  simp [normWords, slotVec_putWords, slotIndex, heldVec_signedVec h hs1, heldVec_publicInRange h hc]

/-- A signature that decodes and passes the norm check is accepted (R114). -/
theorem runWith_verify_accepts (h : VerifyReady .plain s) (hs1 : SignedVec s.ps.n s.ps.qBits s1)
    (hu : unpackWindow C s .sig [sigElem s.ps s.acfg] = some [s1]) (hc : roMap C s.ps s.acfg.oracle (message s) = c)
    (hnorm : normOk s.ps s1 (verifyS2 s.build s.ps s.pk c s1) = true) : runWith C .verify s = .next (accepted s) := by
  have hok := dispatchError_verify h
  obtain ⟨hfits, hd, -, -, -, -, -, -, hs⟩ := h
  obtain ⟨hslot1, hslotC⟩ := slotVec_normWords hfits hs1 (hc ▸ roMap_inRange (q_pos_of_fits hfits) ..)
  have horacle : transition C .verify (inState .vfOracle (putWords s.build .s1 s1 s.scratch) s.tbasis s)
      = inState .vfNorm (normWords s1 c s) s.tbasis s := hc ▸ rfl
  have haccept : transition C .verify (inState .vfNorm (normWords s1 c s) s.tbasis s) = accept _ :=
    verifyNormStep_accepts hslot1 hslotC hnorm
  obtain ⟨hlive, hrun⟩ := runWith_atDispatch (C := C) hd hs hok
  obtain ⟨hlive', hrun'⟩ := runWith_move hlive nofun (verifyDecodeStep_decoded (f := .vfDecode) hu)
  obtain ⟨hlive'', hrun''⟩ := runWith_move hlive' nofun horacle
  calc runWith C .verify s
    _ = runWith C .verify (inState .vfNorm (normWords s1 c s) s.tbasis s) := hrun.trans (hrun'.trans hrun'')
    _ = .next (accepted s) := runWith_to_finish hlive'' nofun nofun haccept rfl endCommand_accept_inState

/-! ### VERIFY_REC, state by state -/

theorem dispatchError_verifyRec (h : VerifyReady .recovery s) : dispatchError .verifyRec s = none := by
  obtain ⟨-, -, hc, hb, hv, hk, hm, hl, -⟩ := h
  simp [dispatchError, configuredChecks, familyBuilt, neededVariant, keyPresent, inputWindows, lengthFits, windowLen,
    windowCap, hc, hb, hv, hk, hm, hl]

/-- VF_DECODE of a signature that decodes (R115). -/
theorem verifyRecDecodeStep_decoded
    (hu : unpackWindow C s .sig [sigElem s.ps s.acfg, sigElem s.ps s.acfg] = some [s1, s2]) :
    verifyRecDecodeStep C (inState f x b s) = inState .vfNorm (putWords s.build .s2 s2 (putWords s.build .s1 s1 x)) b s := by
  rw [verifyRecDecodeStep, inState_ps, inState_acfg, unpackWindow_inState, hu]
  rfl

/-- VF_NORM of a pair below the bound (R115). -/
theorem verifyRecNormStep_passes (hs1 : slotVec s.build x .s1 s.ps.n = s1) (hs2 : slotVec s.build x .s2 s.ps.n = s2)
    (hnorm : normOk s.ps s1 s2 = true) : verifyRecNormStep (inState f x b s) = inState .vfRecon x b s := by
  simp only [verifyRecNormStep, scratchVec_inState, inState_ps, hs1, hs2]
  exact if_pos hnorm

/-- VF_RECON (R115). -/
theorem verifyReconStep_inState (hs1 : slotVec s.build x .s1 s.ps.n = s1) (hs2 : slotVec s.build x .s2 s.ps.n = s2) :
    verifyReconStep (inState f x b s)
      = inState .vfRecover (putWords s.build .t (reconstruct s.build s.ps s.pk s1 s2) x) b s := by
  rw [← hs1, ← hs2]
  rfl

/-- VF_RECOVER of a target whose recovered coefficients are below 2^W (R80, R115). -/
theorem verifyRecoverStep_passes (ht : slotVec s.build x .t s.ps.n = t) (hm1 : recoverM1 C s.ps s.acfg.oracle t = m1)
    (hok : recoverOk s.ps m1 = true) : verifyRecoverStep C (inState f x b s)
      = inState .vfMerge (putWords s.build .t2 (recoverTag s.ps t) (putWords s.build .m1 m1 x)) b s := by
  simp only [verifyRecoverStep, scratchVec_inState, inState_ps, inState_acfg, ht, hm1]
  exact if_pos hok

/-- VF_MERGE of a message that fits (R115). -/
theorem verifyMergeStep_passes (hcap : a1Of s.ps + s.msgLen.toNat ≤ s.build.msgCap) :
    verifyMergeStep (inState f x b s) = inState .vfTag x b s :=
  if_neg (not_lt.2 hcap)

/-- VF_TAG of a message whose tag agrees (R115). -/
theorem verifyTagStep_accepts {mm : List Byte} (hm1 : slotVec s.build x .m1 (s.ps.n - s.ps.k) = m1)
    (ht2 : slotVec s.build x .t2 s.ps.k = t2) (hmm : merge s.build.bitOrder s.ps m1 (message s) = mm)
    (htag : cteq s.ps.k (roTag C s.ps s.acfg.oracle mm) t2 = true) :
    verifyTagStep C (inState f x b s) = accept (inState f x b (windowStore .msg mm s)) := by
  simp only [verifyTagStep, mergedMessage, scratchVec_inState, inState_ps, inState_build, inState_acfg, message_inState,
    hm1, ht2, hmm, windowStore_inState]
  exact if_pos htag

/-- The words of SCRATCH from VF_NORM of VERIFY_REC on: the decoded vectors, then the target, then what it recovers. -/
def decodedWords (s1 s2 : List Int) (s : State) : Scratch := putWords s.build .s2 s2 (putWords s.build .s1 s1 s.scratch)

def recoveredWords (s1 s2 t m1 : List Int) (s : State) : Scratch :=
  putWords s.build .t2 (recoverTag s.ps t)
    (putWords s.build .m1 m1 (putWords s.build .t t (decodedWords s1 s2 s)))

theorem slotVec_decodedWords (h : Fits s) (hs1 : SignedVec s.ps.n s.ps.qBits s1) (hs2 : SignedVec s.ps.n s.ps.qBits s2) :
    slotVec s.build (decodedWords s1 s2 s) .s1 s.ps.n = s1 ∧ slotVec s.build (decodedWords s1 s2 s) .s2 s.ps.n = s2 := by
  simp [decodedWords, slotVec_putWords, slotIndex, heldVec_signedVec h hs1, heldVec_signedVec h hs2]

theorem slotVec_reconWords (h : Fits s) (ht : PublicInRange s.ps t) :
    slotVec s.build (putWords s.build .t t x) .t s.ps.n = t := by
  rw [slotVec_putWords, if_pos rfl, heldVec_publicInRange h ht]

theorem slotVec_recoveredWords (h : Fits s) (ht : PublicInRange s.ps t) (hm1 : recoverM1 C s.ps s.acfg.oracle t = m1) :
    slotVec s.build (recoveredWords s1 s2 t m1 s) .m1 (s.ps.n - s.ps.k) = m1
      ∧ slotVec s.build (recoveredWords s1 s2 t m1 s) .t2 s.ps.k = recoverTag s.ps t := by
  have hq := q_pos_of_fits h
  have hk := k_le_of_fits h
  have hheld1 : heldVec s.build m1 (s.ps.n - s.ps.k) = m1 :=
    hm1 ▸ heldVec_residues h (vec_length ..) (Nat.sub_le ..) (recoverM1_mem hq _ _)
  have hheld2 : heldVec s.build (recoverTag s.ps t) s.ps.k = recoverTag s.ps t :=
    heldVec_residues h (vec_length ..) hk (recoverTag_mem hq ht)
  simp [recoveredWords, slotVec_putWords, slotIndex, hheld1, hheld2]

/-- A signature that passes every check of R115 is accepted, and the merged message is written. -/
theorem runWith_verifyRec_accepts {mm : List Byte} (h : VerifyReady .recovery s)
    (hs1 : SignedVec s.ps.n s.ps.qBits s1) (hs2 : SignedVec s.ps.n s.ps.qBits s2)
    (hu : unpackWindow C s .sig [sigElem s.ps s.acfg, sigElem s.ps s.acfg] = some [s1, s2])
    (hnorm : normOk s.ps s1 s2 = true) (ht : reconstruct s.build s.ps s.pk s1 s2 = t)
    (hm1 : recoverM1 C s.ps s.acfg.oracle t = m1) (hrecover : recoverOk s.ps m1 = true)
    (hcap : a1Of s.ps + s.msgLen.toNat ≤ s.build.msgCap) (hmm : merge s.build.bitOrder s.ps m1 (message s) = mm)
    (htag : cteq s.ps.k (roTag C s.ps s.acfg.oracle mm) (recoverTag s.ps t) = true) :
    runWith C .verifyRec s = .next (accepted (windowStore .msg mm s)) := by
  have hok := dispatchError_verifyRec h
  obtain ⟨hfits, hd, -, -, -, -, -, -, hs⟩ := h
  have hrange : PublicInRange s.ps t := ht ▸ normalize_inRange (q_pos_of_fits hfits) _
  obtain ⟨hslot1, hslot2⟩ := slotVec_decodedWords hfits hs1 hs2
  obtain ⟨hslotM1, hslotT2⟩ := slotVec_recoveredWords (s1 := s1) (s2 := s2) hfits hrange hm1
  obtain ⟨hlive, hrun⟩ := runWith_atDispatch (C := C) hd hs hok
  obtain ⟨hlive1, hrun1⟩ := runWith_move hlive nofun (verifyRecDecodeStep_decoded (f := .vfDecode) hu)
  obtain ⟨hlive2, hrun2⟩ := runWith_move hlive1 nofun (verifyRecNormStep_passes (f := .vfNorm) hslot1 hslot2 hnorm)
  obtain ⟨hlive3, hrun3⟩ := runWith_move hlive2 nofun (ht ▸ verifyReconStep_inState (f := .vfRecon) hslot1 hslot2)
  obtain ⟨hlive4, hrun4⟩ :=
    runWith_move hlive3 nofun (verifyRecoverStep_passes (f := .vfRecover) (slotVec_reconWords hfits hrange) hm1 hrecover)
  obtain ⟨hlive5, hrun5⟩ := runWith_move hlive4 nofun (verifyMergeStep_passes (f := .vfMerge) hcap)
  have haccept := verifyTagStep_accepts (f := .vfTag) (b := s.tbasis) hslotM1 hslotT2 hmm htag
  calc runWith C .verifyRec s
    _ = runWith C .verifyRec (inState .vfTag (recoveredWords s1 s2 t m1 s) s.tbasis s) :=
      hrun.trans (hrun1.trans (hrun2.trans (hrun3.trans (hrun4.trans hrun5))))
    _ = .next (accepted (windowStore .msg mm s)) :=
      runWith_to_finish hlive5 nofun nofun haccept rfl endCommand_accept_inState

end Sys2Proof.Proofs.Acceptances
end

section
/-! What a signing command signs with a sample that meets its contract, the verifying command accepts (45_sign.md R113;
40_helpers.md R82). -/

namespace Sys2Proof.Proofs.RoundTrips

open Sys2Proof Sys2Proof.Machine Sys2Proof.Claims Sys2Proof.Proofs.Transitions Sys2Proof.Proofs.KeyRanges
  Sys2Proof.Proofs.WireForms
  Sys2Proof.Proofs.Runs Sys2Proof.Proofs.Operands Sys2Proof.Proofs.Signing Sys2Proof.Proofs.SamplerRequests
  Sys2Proof.Proofs.RingArithmetic Sys2Proof.Proofs.RingCongruence Sys2Proof.Proofs.Recovery
  Sys2Proof.Proofs.Acceptances

variable {C : Collab} {i : Instr} {s t : State} {s1 s2 : List Int} {r : List SampleDraw} {vs : List (List Int)}

/-! ### The signature through the SIG window and back -/

/-- As many signature elements as there are vectors (R56, R57). -/
def sigSchema (s : State) (vs : List (List Int)) : List ElemDesc := List.replicate vs.length (sigElem s.ps s.acfg)

theorem packSig_eq_pack (C : Collab) (s : State) (vs : List (List Int)) : packSig C s vs = pack s.build.bitOrder
    (List.zipWith (encodeElem C s.build.bitOrder s.ps.n) (sigSchema s vs) vs) := by
  have hzip : ∀ vs : List (List Int), vs.map (encodeElem C s.build.bitOrder s.ps.n (sigElem s.ps s.acfg))
      = List.zipWith (encodeElem C s.build.bitOrder s.ps.n) (sigSchema s vs) vs := fun vs => by
    induction vs with
    | nil => rfl
    | cons v vs ih => rw [List.map_cons, ih]; rfl
  rw [packSig, hzip]

theorem uncoded_sigSchema (hcoding : s.acfg.sigCoding = .none) : ∀ e ∈ sigSchema s vs, e.coding = .none := fun _ he =>
  (List.eq_of_mem_replicate he) ▸ hcoding

/-- Vectors of signed Q_BITS values are read back from their wire form (R71 - R73). -/
theorem unpack_packSig (h : Fits s) (hcoding : s.acfg.sigCoding = .none)
    (hvs : ∀ v ∈ vs, SignedVec s.ps.n s.ps.qBits v) :
    unpack C s.build.bitOrder s.ps.n (packSig C s vs) (sigSchema s vs) = some vs := by
  rw [packSig_eq_pack]
  refine unpack_pack (uncoded_sigSchema hcoding) (List.forall₂_iff_get.2 ⟨by simp [sigSchema], fun k h1 h2 => ?_⟩)
  have he : (sigSchema s vs).get ⟨k, h1⟩ = sigElem s.ps s.acfg := List.getElem_replicate ..
  rw [he]
  exact encodable_of_signedVec rfl (qBits_pos_of_fits h) (hvs _ (List.get_mem ..))

theorem packSig_length (hcoding : s.acfg.sigCoding = .none) :
    (packSig C s vs).length = byteCount (vs.length * s.ps.n * s.ps.qBits) := by
  rw [packSig_eq_pack, pack, toBytes_length, encoded_length (uncoded_sigSchema hcoding) (by simp [sigSchema])]
  simp [sigSchema, sigElem, Nat.mul_assoc, Nat.mul_left_comm]

/-- The set of a configured variant has the storage its signatures need (R84). -/
theorem signature_length_le (h : Signs i s) (hcoding : s.acfg.sigCoding = .none)
    (hstorage : storageFits s.build s.acfg.variant s.ps = true) :
    (signature C i s1 s2 s).length ≤ s.build.sigCap := by
  rw [signature, packSig_length hcoding]
  simp only [storageFits, Bool.and_eq_true, decide_eq_true_eq] at hstorage
  obtain ⟨⟨-, hcap⟩, -⟩ := hstorage
  rcases h with ⟨rfl, -, -, -, -, hv, -⟩ | ⟨rfl, -, -, -, -, hv, -⟩ <;> rw [hv] at hcap <;> exact hcap

/-- Unpack of a window is not touched by a store into another one (R73, R147). -/
theorem unpackWindow_windowStore_ne (hwf : s.build.wf = true) (hmem : s.mem.wf) {win win' : Window} (hne : win' ≠ win)
    {bytes : List Byte} (hfit : bytes.length ≤ windowCap s.build win)
    (hlen : (windowLen s win').toNat ≤ windowCap s.build win') (schema : List ElemDesc) :
    unpackWindow C (windowStore win bytes s) win' schema = unpackWindow C s win' schema := by
  rw [unpackWindow, windowLen_windowStore_ne hne, windowRead_windowStore_ne hwf hmem hne hfit hlen, windowStore_build,
    windowStore_ps]
  rfl

/-- The stored signature unpacks to its vectors (R71 - R73). -/
theorem unpackWindow_signature (h : Signs i s) (hcoding : s.acfg.sigCoding = .none) (hwf : s.build.wf = true)
    (hmem : s.mem.wf) (hfit : (signature C i s1 s2 s).length ≤ s.build.sigCap) :
    unpackWindow C (windowStore .sig (signature C i s1 s2 s) { s with sampPort := r }) .sig
      (sigSchema s (signedVectors i s.ps s1 s2)) = some (signedVectors i s.ps s1 s2) := by
  have hcap : s.build.sigCap ≤ 65536 := windowCap_le hwf .sig
  rw [unpackWindow_windowStore (s := { s with sampPort := r }) C hmem hfit (by omega)]
  refine unpack_packSig h.fits hcoding fun v hv => ?_
  rcases h with ⟨rfl, h⟩ | ⟨rfl, h⟩
  · obtain rfl := List.mem_singleton.1 hv
    exact signedVec_center h.1 _
  · obtain rfl | rfl := List.mem_pair.1 hv <;> exact signedVec_center h.1 _

/-! ### The verifying command after the signing one -/

/-- A command started where another has ended finds the stores the other left. -/
theorem sameStores_restarted (w : Word) (s : State) : SameStores s (startCommand w (ended s)) :=
  ⟨⟨rfl, rfl, rfl, rfl, rfl, rfl⟩, rfl, rfl, rfl⟩

theorem message_restarted (w : Word) (s : State) : message (startCommand w (ended s)) = message s := rfl

theorem unpackWindow_restarted (w : Word) (s : State) (win : Window) (schema : List ElemDesc) :
    unpackWindow C (startCommand w (ended s)) win schema = unpackWindow C s win schema := by
  cases win <;> rfl

theorem fits_of_sameStores (h : SameStores s t) (hfits : Fits s) : Fits t := by
  unfold Fits
  rwa [h.ps, h.build]

/-- The block a signing command has left is ready to verify (R122). -/
theorem verifyReady_restarted {v : Variant} (h : SignReady v s) (hsame : SameStores s t) (w : Word)
    (hb : s.build.verify = true) (hpk : s.status.pkValid = true) (hs : t.silent = s.silent)
    (hmsg : t.msgLen.toNat ≤ s.build.msgCap) (hsig : t.sigLen.toNat ≤ s.build.sigCap) :
    VerifyReady v (startCommand w (ended t)) := by
  obtain ⟨hfits, -, hc, -, hv, -, -, hsilent⟩ := h
  rw [← hsame.build] at hb hmsg hsig
  exact ⟨fits_of_sameStores (hsame.trans (sameStores_restarted w t)) hfits, ⟨rfl, rfl⟩, hsame.configured.trans hc, hb,
    (congrArg Acfg.variant hsame.acfg).trans hv, hsame.pkValid.trans hpk, hmsg, hsig, hs.trans hsilent⟩

/-! ### SIGN and VERIFY -/

/-- What SIGN leaves in the SIG window. -/
def signed (C : Collab) (s1 s2 : List Int) (r : List SampleDraw) (s : State) : State :=
  windowStore .sig (signature C .sign s1 s2 s) { s with sampPort := r }

theorem sameStores_signed (C : Collab) (s1 s2 : List Int) (r : List SampleDraw) (s : State) :
    SameStores s (signed C s1 s2 r s) := .of_works ((Works.start.draw r).store .sig _)

/-- SIGN leaves the message (R109). -/
theorem message_signed (h : Signs .sign s) (hwf : s.build.wf = true) (hmem : s.mem.wf)
    (hfit : (signature C .sign s1 s2 s).length ≤ s.build.sigCap) : message (signed C s1 s2 r s) = message s := by
  rw [signed, message_windowStore_sig (s := { s with sampPort := r }) hwf hmem h.message_fits hfit]
  rfl

theorem verifyReady_signed (h : SignReady .plain s) (hb : s.build.verify = true)
    (hpk : s.status.pkValid = true) (hfit : (signature C .sign s1 s2 s).length ≤ s.build.sigCap) :
    VerifyReady .plain (startCommand (encode .verify) (ended (signed C s1 s2 r s))) :=
  have hsign : Signs .sign s := .inl ⟨rfl, h⟩
  verifyReady_restarted h (sameStores_signed ..) _ hb hpk (windowStore_silent ..) hsign.message_fits
    ((windowLen_windowStore_le .sig _ { s with sampPort := r }).trans hfit)

/-- VERIFY of a signature s1 of the message accepts where h·s1 + s2 is the target modulo Q for a short s2 (R113, R114). -/
theorem runWith_verify_of_contract (h : VerifyReady .plain s)
    (hu : unpackWindow C s .sig [sigElem s.ps s.acfg] = some [center s.ps s1])
    (hcontract : Machine.normalize s.ps (vecAdd s.ps.n (ringMul s.build.ringPoly s.ps s.pk s1) s2)
      = roMap C s.ps s.acfg.oracle (message s))
    (hnorm : sqNorm s.ps.n (center s.ps s1) (center s.ps s2) < s.ps.bdSq) :
    runWith C .verify s = .next (accepted s) := by
  refine runWith_verify_accepts h (signedVec_center h.1 s1) hu rfl ?_
  rw [verifyS2_center hcontract]
  exact decide_eq_true hnorm

/-- Settles O46: VERIFY decodes the centred s1, and computes the centred s2 from it and the target. -/
theorem plainSignatureIsAccepted : Obligations.PlainSignatureIsAccepted := by
  intro C s s1 s2 x r h hb hpk hcoding hwf hmem hstorage hr hcontract hnorm
  have hsign : Signs .sign s := .inl ⟨rfl, h⟩
  have hfit := signature_length_le (C := C) (s1 := s1) (s2 := x) hsign hcoding hstorage
  have hready := verifyReady_signed (r := r) h hb hpk hfit
  have hu := (unpackWindow_restarted (encode .verify) (signed C s1 x r s) .sig _).trans
    (unpackWindow_signature hsign hcoding hwf hmem hfit)
  have hmessage := (message_restarted (encode .verify) (signed C s1 x r s)).trans
    (message_signed hsign hwf hmem hfit)
  have hsame : SameStores s (startCommand (encode .verify) (ended (signed C s1 x r s))) :=
    (sameStores_signed ..).trans (sameStores_restarted ..)
  rw [← roMap_eq_plainTarget, ← hmessage, ← hsame.ps, ← hsame.build, ← hsame.acfg, ← hsame.pk] at hcontract
  rw [← hsame.ps] at hnorm
  have hverify := runWith_verify_of_contract hready hu hcontract hnorm
  exact ⟨_, _, runWith_sign_stored h hr hfit, hverify, rfl, rfl⟩

/-! ### What the recovery target recovers -/

/-- The last K coefficients of the target are the tag (R78, R80). -/
theorem recoverTag_recTarget {ps : ParamSet} (hk : ps.k ≤ ps.n) (o : BitOrder) (oc : Oracle) (msg : List Byte) :
    recoverTag ps (recTarget C o ps oc msg) = roTag C ps oc msg := by
  refine vec_congr fun j hj => ?_
  rw [recTarget, coef_vec_lt _ (by omega), if_neg (by omega), Nat.add_sub_cancel_left, roTag, coef_vec_lt _ hj]

/-- The others are m1, masked: its values are below 2^W, and 2^W is at most Q (R7, R78, R80). -/
theorem recoverM1_recTarget {ps : ParamSet} (hk : ps.k ≤ ps.n) (hw : 2 ^ ps.w ≤ ps.q) (o : BitOrder) (oc : Oracle)
    (msg : List Byte) : recoverM1 C ps oc (recTarget C o ps oc msg) = m1Of o ps msg := by
  simp only [recoverM1, recoverTag_recTarget hk]
  refine vec_coef (v := m1Of o ps msg) (vec_length ..) fun i hi => ?_
  obtain ⟨hlo, hhi⟩ := m1Of_mem o ps msg hi
  have hq : (2 ^ ps.w : Int) ≤ ps.q := by exact_mod_cast hw
  rw [recTarget, coef_vec_lt _ (by omega), if_pos hi, Int.emod_sub_emod, Int.add_sub_cancel,
    Int.emod_eq_of_lt hlo (hhi.trans_le hq)]

theorem recoverOk_m1Of (o : BitOrder) (ps : ParamSet) (msg : List Byte) : recoverOk ps (m1Of o ps msg) = true :=
  List.all_eq_true.2 fun _ hi => decide_eq_true (m1Of_mem o ps msg (List.mem_range.1 hi)).2

/-- The active set of a build that meets its constraints meets those of its variant (R7). -/
theorem wf_active (h : s.build.wf = true) : s.ps.wf s.acfg.variant = true := by
  simp only [Build.wf, Bool.and_eq_true] at h
  obtain ⟨⟨⟨⟨⟨⟨⟨⟨⟨⟨⟨⟨hp0, hp1⟩, hr0⟩, hr1⟩, -⟩, -⟩, -⟩, -⟩, -⟩, -⟩, -⟩, -⟩, -⟩ := h
  unfold State.ps Build.pset
  cases s.acfg.variant <;> dsimp only <;> split <;> assumption

theorem two_pow_w_le (h : s.build.wf = true) : 2 ^ s.ps.w ≤ s.ps.q := by
  have hset := wf_active h
  simp only [ParamSet.wf, Bool.and_eq_true, decide_eq_true_eq] at hset
  obtain ⟨⟨⟨⟨⟨⟨⟨⟨⟨-, hq⟩, -⟩, -⟩, -⟩, -⟩, -⟩, -⟩, -⟩, -⟩ := hset
  exact hq

theorem cteq_self (k : Nat) (v : List Int) : cteq k v v = true := by simp [cteq]

/-! ### SIGN_REC and VERIFY_REC -/

/-- What SIGN_REC leaves in the windows and their lengths: the signature and m2. -/
def signedRec (C : Collab) (s1 s2 : List Int) (r : List SampleDraw) (s : State) : State :=
  windowStore .msg (compact s.build.bitOrder s.ps (message s))
    (windowStore .sig (signature C .signRec s1 s2 s) { s with sampPort := r })

theorem compact_message_length (s : State) :
    (compact s.build.bitOrder s.ps (message s)).length = s.msgLen.toNat - a1Of s.ps := by
  rw [compact_length, message_length]

theorem signedRec_msgLen (C : Collab) (s1 s2 : List Int) (r : List SampleDraw) (s : State) :
    (signedRec C s1 s2 r s).msgLen.toNat = s.msgLen.toNat - a1Of s.ps := by
  have hlen : (signedRec C s1 s2 r s).msgLen = _ := windowLen_windowStore .msg _ _
  have hlt := s.msgLen.isLt
  rw [hlen, BitVec.toNat_ofNat, compact_message_length, Nat.mod_eq_of_lt (by omega)]

theorem signedRec_sigLen_le (hfit : (signature C .signRec s1 s2 s).length ≤ s.build.sigCap) :
    (signedRec C s1 s2 r s).sigLen.toNat ≤ s.build.sigCap := by
  have hlen : (signedRec C s1 s2 r s).sigLen
      = (windowStore .sig (signature C .signRec s1 s2 s) { s with sampPort := r }).sigLen :=
    windowLen_windowStore_ne (win := .msg) (win' := .sig) nofun _ _
  rw [hlen]
  exact (windowLen_windowStore_le .sig _ { s with sampPort := r }).trans hfit

/-- After SIGN_REC the MSG window holds m2 (R77, R110). -/
theorem message_signedRec (h : Signs .signRec s) (hmem : s.mem.wf) :
    message (signedRec C s1 s2 r s) = compact s.build.bitOrder s.ps (message s) := by
  have hmsg := h.message_fits
  have hlt := s.msgLen.isLt
  have hlen := compact_message_length s
  have hmem' := windowStore_wf (s := { s with sampPort := r }) hmem .sig (signature C .signRec s1 s2 s)
  rw [signedRec, message_windowStore_msg hmem' _ (by omega)]
  rw [windowStore_build]
  exact hlen.trans_le ((Nat.sub_le ..).trans hmsg)

/-- The SIG window still unpacks to the signature (R57, R110). -/
theorem unpackWindow_signedRec (h : Signs .signRec s) (hcoding : s.acfg.sigCoding = .none) (hwf : s.build.wf = true)
    (hmem : s.mem.wf) (hfit : (signature C .signRec s1 s2 s).length ≤ s.build.sigCap) :
    unpackWindow C (signedRec C s1 s2 r s) .sig [sigElem s.ps s.acfg, sigElem s.ps s.acfg]
      = some [center s.ps s1, center s.ps s2] := by
  have hmsg : (compact s.build.bitOrder s.ps (message s)).length ≤ s.build.msgCap :=
    compact_message_length s ▸ (Nat.sub_le ..).trans h.message_fits
  have hkept := unpackWindow_windowStore_ne (C := C)
    (s := windowStore .sig (signature C .signRec s1 s2 s) { s with sampPort := r }) hwf
    (windowStore_wf (s := { s with sampPort := r }) hmem .sig _) (win := .msg) (win' := .sig) nofun hmsg
    ((windowLen_windowStore_le .sig _ { s with sampPort := r }).trans hfit)
    [sigElem s.ps s.acfg, sigElem s.ps s.acfg]
  exact hkept.trans (unpackWindow_signature h hcoding hwf hmem hfit)

theorem sameStores_signedRec (C : Collab) (s1 s2 : List Int) (r : List SampleDraw) (s : State) :
    SameStores s (signedRec C s1 s2 r s) := .of_works (((Works.start.draw r).store .sig _).store .msg _)

theorem signedRec_silent (C : Collab) (s1 s2 : List Int) (r : List SampleDraw) (s : State) :
    (signedRec C s1 s2 r s).silent = s.silent := (windowStore_silent ..).trans (windowStore_silent ..)

theorem verifyReady_signedRec (h : SignReady .recovery s) (hb : s.build.verify = true)
    (hpk : s.status.pkValid = true) (hfit : (signature C .signRec s1 s2 s).length ≤ s.build.sigCap) :
    VerifyReady .recovery (startCommand (encode .verifyRec) (ended (signedRec C s1 s2 r s))) := by
  have hsign : Signs .signRec s := .inr ⟨rfl, h⟩
  have hmsg : (signedRec C s1 s2 r s).msgLen.toNat ≤ s.build.msgCap := by
    rw [signedRec_msgLen]
    exact (Nat.sub_le ..).trans hsign.message_fits
  exact verifyReady_restarted h (sameStores_signedRec C s1 s2 r s) _ hb hpk (signedRec_silent ..) hmsg
    (signedRec_sigLen_le hfit)

/-- VERIFY_REC of a signature of `msg` with m2 in the MSG window accepts and writes the message back (R82, R113, R115). -/
theorem runWith_verifyRec_of_contract {msg : List Byte} (h : VerifyReady .recovery s) (hwf : s.build.wf = true)
    (hu : unpackWindow C s .sig [sigElem s.ps s.acfg, sigElem s.ps s.acfg] = some [center s.ps s1, center s.ps s2])
    (hm2 : message s = compact s.build.bitOrder s.ps msg) (hlong : a1Of s.ps ≤ msg.length)
    (hcap : msg.length ≤ s.build.msgCap)
    (hcontract : Machine.normalize s.ps (vecAdd s.ps.n (ringMul s.build.ringPoly s.ps s.pk s1) s2)
      = recTarget C s.build.bitOrder s.ps s.acfg.oracle msg)
    (hnorm : sqNorm s.ps.n (center s.ps s1) (center s.ps s2) < s.ps.bdSq) :
    runWith C .verifyRec s = .next (accepted (windowStore .msg msg s)) := by
  have hk := k_le_of_fits h.1
  have hlen : s.msgLen.toNat = msg.length - a1Of s.ps := by rw [← message_length, hm2, compact_length]
  have hmerge : merge s.build.bitOrder s.ps (m1Of s.build.bitOrder s.ps msg) (message s) = msg := by
    rw [hm2, merge_compact, Nat.sub_eq_zero_of_le hlong, List.replicate_zero, List.append_nil]
  have ht := (reconstruct_center s.build s.ps s.pk s1 s2).trans hcontract
  have hm1 := recoverM1_recTarget (C := C) hk (two_pow_w_le hwf) s.build.bitOrder s.acfg.oracle msg
  have htag : cteq s.ps.k (roTag C s.ps s.acfg.oracle msg)
      (recoverTag s.ps (recTarget C s.build.bitOrder s.ps s.acfg.oracle msg)) = true := by
    rw [recoverTag_recTarget hk]
    exact cteq_self ..
  exact runWith_verifyRec_accepts h (signedVec_center h.1 s1) (signedVec_center h.1 s2) hu (decide_eq_true hnorm) ht hm1
    (recoverOk_m1Of ..) (by omega) hmerge htag

/-- Settles O47: VERIFY_REC reconstructs the target from the centred vectors and recovers m1 and the tag from it; with the m2
bytes in the MSG window that is the message. -/
theorem recoverySignatureReturnsTheMessage : Obligations.RecoverySignatureReturnsTheMessage := by
  intro C s s1 s2 r h hb hpk hcoding hwf hmem hstorage hr hcontract hnorm hlong
  have hsign : Signs .signRec s := .inr ⟨rfl, h⟩
  have hfit := signature_length_le (C := C) (s1 := s1) (s2 := s2) hsign hcoding hstorage
  have hready := verifyReady_signedRec (r := r) h hb hpk hfit
  have hlen := message_length s
  have hu := (unpackWindow_restarted (encode .verifyRec) (signedRec C s1 s2 r s) .sig _).trans
    (unpackWindow_signedRec hsign hcoding hwf hmem hfit)
  have hm2 := (message_restarted (encode .verifyRec) (signedRec C s1 s2 r s)).trans (message_signedRec hsign hmem)
  have ha1 : a1Of s.ps ≤ (message s).length := hlong.trans_eq hlen.symm
  have hcap := hlen.trans_le hsign.message_fits
  have hsame : SameStores s (startCommand (encode .verifyRec) (ended (signedRec C s1 s2 r s))) :=
    (sameStores_signedRec ..).trans (sameStores_restarted ..)
  rw [← recTarget_eq_recoveryTarget, ← hsame.ps, ← hsame.build, ← hsame.acfg, ← hsame.pk] at hcontract
  rw [← hsame.ps] at hnorm ha1
  rw [← hsame.build] at hcap
  rw [← hsame.ps, ← hsame.build] at hm2
  rw [← hsame.ps, ← hsame.acfg] at hu
  have hverify := runWith_verifyRec_of_contract hready (hsame.build ▸ hwf) hu hm2 ha1 hcap hcontract hnorm
  have hsigned : signRecWith C s = .next (ended (signedRec C s1 s2 r s)) := runWith_signRec_stored h hwf hmem hr hfit
  refine ⟨_, _, hsigned, hverify, rfl, ?_, ?_⟩
  · show BitVec.ofNat 32 (message s).length = s.msgLen
    rw [message_length, BitVec.ofNat_toNat, BitVec.setWidth_eq]
  · have hmem' : (startCommand (encode .verifyRec) (ended (signedRec C s1 s2 r s))).mem.wf :=
      windowStore_wf (windowStore_wf (s := { s with sampPort := r }) hmem .sig _) .msg _
    have hlt := s.msgLen.isLt
    exact message_windowStore_msg hmem' (hlen.trans_le hsign.message_fits) (by omega)

end Sys2Proof.Proofs.RoundTrips
end

section
/-! What the verifying commands share on their way to a verdict, with any collaborators: the states a run reaches, the vectors a
decoded signature gives, and the end by a rejection (46_verify.md R114 - R117). -/

namespace Sys2Proof.Proofs.Rejections

open Sys2Proof Sys2Proof.Machine Sys2Proof.Claims Sys2Proof.Proofs.Transitions Sys2Proof.Proofs.Waiting
  Sys2Proof.Proofs.KeyRanges Sys2Proof.Proofs.Runs Sys2Proof.Proofs.Operands

variable {C : Collab} {i : Instr} {s t u z : State} {f : Fsm} {x : Scratch} {b : Basis}

/-! ### The states a run reaches -/

/-- The run of command `i` from `s` comes to `t` and goes on from there, its collaborators answering (R36). -/
structure Reaches (C : Collab) (i : Instr) (s t : State) : Prop where
  live : Live i t
  run : runWith C i s = runWith C i t

/-- A command whose checks all pass reaches the first state of its rule (R35, R122). -/
theorem reaches_firstState (h : AtDispatch s) (hs : s.silent = []) (hok : dispatchError i s = none) :
    Reaches C i s (inState (firstState i) s.scratch s.tbasis s) :=
  have ⟨hlive, hrun⟩ := runWith_atDispatch h hs hok
  ⟨hlive, hrun⟩

/-- Before FINISH a run reaches what the next transition leaves. -/
theorem Reaches.move (h : Reaches C i s t) (hf : t.st ≠ .finish) (hmove : transition C i t = u) : Reaches C i s u :=
  have ⟨hlive, hrun⟩ := runWith_move h.live hf hmove
  ⟨hlive, h.run.trans hrun⟩

/-! ### The end by a rejection -/

theorem endCommand_reject_inState : endCommand (reject (inState f x b s)) = rejected s := rfl

/-- A rejection of VERIFY_REC leaves the MSG window zeroed (R117). -/
theorem rejectRec_inState : rejectRec (inState f x b s) = reject (inState f x b (windowStore .msg [] s)) :=
  congrArg reject (windowStore_inState ..)

/-- A run that reaches a rejection ends rejected, with the windows the rejection has left (R128). -/
theorem Reaches.rejects (h : Reaches C i s t) (hi : i ≠ .destroy) (hf : t.st ≠ .finish)
    (hmove : transition C i t = reject (inState f x b z)) : runWith C i s = .next (rejected z) :=
  h.run.trans (runWith_to_finish h.live hi hf hmove rfl endCommand_reject_inState)

theorem Reaches.rejectsRec (h : Reaches C .verifyRec s (inState f x b s)) (hf : f ≠ .finish)
    (hmove : transition C .verifyRec (inState f x b s) = rejectRec (inState f x b s)) :
    runWith C .verifyRec s = .next (rejected (windowStore .msg [] s)) :=
  h.rejects nofun hf (hmove.trans rejectRec_inState)

/-! ### Decoded vectors -/

/-- The vectors a signature decodes to hold signed Q_BITS values (R71, R73). -/
theorem signedVec_of_decoded {schema : List ElemDesc} {vs : List (List Int)} (h : Fits s)
    (hu : unpackWindow C s .sig schema = some vs) (hschema : ∀ e ∈ schema, e = sigElem s.ps s.acfg) :
    ∀ v ∈ vs, SignedVec s.ps.n s.ps.qBits v := by
  have hwidth : ∀ e ∈ schema, 1 ≤ e.w := fun e he => (hschema e he).symm ▸ qBits_pos_of_fits h
  have hall := List.forall₂_iff_get.1 (unpackWindow_forall₂ hu hwidth)
  intro v hv
  obtain ⟨k, hk, rfl⟩ := List.getElem_of_mem hv
  have hk' : k < schema.length := hall.1 ▸ hk
  have hvalues := hall.2 k hk' hk
  rwa [hschema _ (List.get_mem schema ⟨k, hk'⟩)] at hvalues

end Sys2Proof.Proofs.Rejections
end

section
/-! VERIFY from DISPATCH to its verdict (46_verify.md R114). -/

namespace Sys2Proof.Proofs.VerifyVerdict

open Sys2Proof Sys2Proof.Machine Sys2Proof.Claims Sys2Proof.Proofs.Waiting Sys2Proof.Proofs.Runs
  Sys2Proof.Proofs.Operands Sys2Proof.Proofs.RingArithmetic Sys2Proof.Proofs.Acceptances Sys2Proof.Proofs.Rejections

variable {C : Collab} {s : State} {f : Fsm} {x : Scratch} {b : Basis} {s1 c : List Int}

/-- VF_DECODE of a signature that does not decode (R114). -/
theorem verifyDecodeStep_undecoded (hu : ∀ v, unpackWindow C s .sig [sigElem s.ps s.acfg] ≠ some [v]) :
    verifyDecodeStep C (inState f x b s) = reject (inState f x b s) := by
  rw [verifyDecodeStep, inState_ps, inState_acfg, unpackWindow_inState]
  split
  · exact absurd ‹_› (hu _)
  · rfl

/-- VF_NORM of a pair at or above the bound (R114). -/
theorem verifyNormStep_rejects (hs1 : slotVec s.build x .s1 s.ps.n = s1) (hc : slotVec s.build x .target s.ps.n = c)
    (hnorm : ¬normOk s.ps s1 (verifyS2 s.build s.ps s.pk c s1) = true) :
    verifyNormStep (inState f x b s) = reject (inState f x b s) := by
  simp only [verifyNormStep, scratchVec_inState, inState_ps, inState_build, inState_pk, hs1, hc]
  exact if_neg hnorm

theorem reaches_vfDecode (h : VerifyReady .plain s) :
    Reaches C .verify s (inState .vfDecode s.scratch s.tbasis s) := by
  have hok := dispatchError_verify h
  obtain ⟨-, hd, -, -, -, -, -, -, hs⟩ := h
  exact reaches_firstState hd hs hok

/-- A signature that does not decode is rejected (R114). -/
theorem runWith_verify_undecoded (h : VerifyReady .plain s)
    (hu : ∀ v, unpackWindow C s .sig [sigElem s.ps s.acfg] ≠ some [v]) : runWith C .verify s = .next (rejected s) :=
  (reaches_vfDecode h).rejects nofun nofun (verifyDecodeStep_undecoded hu)

/-- A signature that decodes and fails the norm check is rejected (R114). -/
theorem runWith_verify_rejects (h : VerifyReady .plain s) (hs1 : SignedVec s.ps.n s.ps.qBits s1)
    (hu : unpackWindow C s .sig [sigElem s.ps s.acfg] = some [s1]) (hc : roMap C s.ps s.acfg.oracle (message s) = c)
    (hnorm : ¬normOk s.ps s1 (verifyS2 s.build s.ps s.pk c s1) = true) : runWith C .verify s = .next (rejected s) := by
  subst hc
  obtain ⟨hslot1, hslotC⟩ := slotVec_normWords h.1 hs1 (roMap_inRange (q_pos_of_fits h.1) ..)
  have horacle := (reaches_vfDecode h).move nofun (verifyDecodeStep_decoded (f := .vfDecode) hu)
  have hcheck : Reaches C .verify s
      (inState .vfNorm (normWords s1 (roMap C s.ps s.acfg.oracle (message s)) s) s.tbasis s) := horacle.move nofun rfl
  exact hcheck.rejects nofun nofun (verifyNormStep_rejects hslot1 hslotC hnorm)

/-- Settles O37: the SIG window decodes or it does not, and the decoded pair is below the bound or it is not. -/
theorem verifyDecidesByTheNorm : Obligations.VerifyDecidesByTheNorm := by
  intro s h
  rw [exec_eq_runWith]
  split
  · rename_i s1 hu
    have hs1 := signedVec_of_decoded h.1 hu (by simp [sigPart, sigElem]) s1 (by simp)
    dsimp only
    split <;> rename_i hnorm
    · exact runWith_verify_accepts h hs1 hu rfl ((normOk_iff ..).2 hnorm)
    · exact runWith_verify_rejects h hs1 hu rfl (mt (normOk_iff ..).1 hnorm)
  · rename_i hu
    exact runWith_verify_undecoded h hu

end Sys2Proof.Proofs.VerifyVerdict
end

section
/-! VERIFY_REC from DISPATCH to its verdict: each of its checks in order, and the state that the next one finds (40_helpers.md R80;
46_verify.md R115, R117). -/

namespace Sys2Proof.Proofs.VerifyRecVerdict

open Sys2Proof Sys2Proof.Machine Sys2Proof.Claims Sys2Proof.Proofs.Waiting Sys2Proof.Proofs.Runs
  Sys2Proof.Proofs.Operands Sys2Proof.Proofs.RingArithmetic Sys2Proof.Proofs.Acceptances Sys2Proof.Proofs.Rejections
  Sys2Proof.Proofs.VerifyVerdict

variable {C : Collab} {s : State} {f : Fsm} {x : Scratch} {b : Basis} {s1 s2 t m1 t2 : List Int} {mm : List Byte}

/-! ### The failing checks -/

/-- VF_DECODE of a signature that does not decode (R115). -/
theorem verifyRecDecodeStep_undecoded
    (hu : ∀ v w, unpackWindow C s .sig [sigElem s.ps s.acfg, sigElem s.ps s.acfg] ≠ some [v, w]) :
    verifyRecDecodeStep C (inState f x b s) = rejectRec (inState f x b s) := by
  rw [verifyRecDecodeStep, inState_ps, inState_acfg, unpackWindow_inState]
  split
  · exact absurd ‹_› (hu _ _)
  · rfl

/-- VF_NORM of a pair at or above the bound (R115). -/
theorem verifyRecNormStep_rejects (hs1 : slotVec s.build x .s1 s.ps.n = s1) (hs2 : slotVec s.build x .s2 s.ps.n = s2)
    (hnorm : ¬normOk s.ps s1 s2 = true) : verifyRecNormStep (inState f x b s) = rejectRec (inState f x b s) := by
  simp only [verifyRecNormStep, scratchVec_inState, inState_ps, hs1, hs2]
  exact if_neg hnorm

/-- VF_RECOVER of a target one of whose recovered coefficients is 2^W or more (R80, R115). -/
theorem verifyRecoverStep_rejects (ht : slotVec s.build x .t s.ps.n = t) (hm1 : recoverM1 C s.ps s.acfg.oracle t = m1)
    (hok : ¬recoverOk s.ps m1 = true) : verifyRecoverStep C (inState f x b s) = rejectRec (inState f x b s) := by
  simp only [verifyRecoverStep, scratchVec_inState, inState_ps, inState_acfg, ht, hm1]
  exact if_neg hok

/-- VF_MERGE of a message longer than the MSG window (R115). -/
theorem verifyMergeStep_rejects (hcap : s.build.msgCap < a1Of s.ps + s.msgLen.toNat) :
    verifyMergeStep (inState f x b s) = rejectRec (inState f x b s) :=
  if_pos hcap

/-- VF_TAG of a message whose tag is another one (R115). -/
theorem verifyTagStep_rejects (hm1 : slotVec s.build x .m1 (s.ps.n - s.ps.k) = m1) (ht2 : slotVec s.build x .t2 s.ps.k = t2)
    (hmm : merge s.build.bitOrder s.ps m1 (message s) = mm)
    (htag : ¬cteq s.ps.k (roTag C s.ps s.acfg.oracle mm) t2 = true) :
    verifyTagStep C (inState f x b s) = rejectRec (inState f x b s) := by
  simp only [verifyTagStep, mergedMessage, scratchVec_inState, inState_ps, inState_build, inState_acfg, message_inState,
    hm1, ht2, hmm]
  exact if_neg htag

/-! ### A signature that does not decode -/

theorem reaches_vfDecode (h : VerifyReady .recovery s) :
    Reaches C .verifyRec s (inState .vfDecode s.scratch s.tbasis s) := by
  have hok := dispatchError_verifyRec h
  obtain ⟨-, hd, -, -, -, -, -, -, hs⟩ := h
  exact reaches_firstState hd hs hok

theorem runWith_verifyRec_undecoded (h : VerifyReady .recovery s)
    (hu : ∀ v w, unpackWindow C s .sig [sigElem s.ps s.acfg, sigElem s.ps s.acfg] ≠ some [v, w]) :
    runWith C .verifyRec s = .next (rejected (windowStore .msg [] s)) :=
  (reaches_vfDecode h).rejectsRec nofun (verifyRecDecodeStep_undecoded hu)

/-! ### The state each check finds -/

/-- A command ready to verify whose SIG window decodes to two vectors of signed Q_BITS values. -/
structure Decoded (C : Collab) (s1 s2 : List Int) (s : State) : Prop where
  ready : VerifyReady .recovery s
  unpacks : unpackWindow C s .sig [sigElem s.ps s.acfg, sigElem s.ps s.acfg] = some [s1, s2]
  signed1 : SignedVec s.ps.n s.ps.qBits s1
  signed2 : SignedVec s.ps.n s.ps.qBits s2

theorem decoded_of_unpacks (h : VerifyReady .recovery s)
    (hu : unpackWindow C s .sig [sigElem s.ps s.acfg, sigElem s.ps s.acfg] = some [s1, s2]) : Decoded C s1 s2 s :=
  have hvs := signedVec_of_decoded h.1 hu (by simp)
  ⟨h, hu, hvs s1 (by simp), hvs s2 (by simp)⟩

namespace Decoded

theorem slots (h : Decoded C s1 s2 s) :
    slotVec s.build (decodedWords s1 s2 s) .s1 s.ps.n = s1 ∧ slotVec s.build (decodedWords s1 s2 s) .s2 s.ps.n = s2 :=
  slotVec_decodedWords h.ready.1 h.signed1 h.signed2

/-- The reconstructed target is a vector of residues (R115). -/
theorem target_inRange (h : Decoded C s1 s2 s) (ht : reconstruct s.build s.ps s.pk s1 s2 = t) : PublicInRange s.ps t :=
  ht ▸ normalize_inRange (q_pos_of_fits h.ready.1) _

theorem reaches_vfNorm (h : Decoded C s1 s2 s) :
    Reaches C .verifyRec s (inState .vfNorm (decodedWords s1 s2 s) s.tbasis s) :=
  (reaches_vfDecode h.ready).move nofun (verifyRecDecodeStep_decoded (f := .vfDecode) h.unpacks)

theorem reaches_vfRecover (h : Decoded C s1 s2 s) (hnorm : normOk s.ps s1 s2 = true)
    (ht : reconstruct s.build s.ps s.pk s1 s2 = t) :
    Reaches C .verifyRec s (inState .vfRecover (putWords s.build .t t (decodedWords s1 s2 s)) s.tbasis s) :=
  have ⟨hslot1, hslot2⟩ := h.slots
  have hrecon := h.reaches_vfNorm.move nofun (verifyRecNormStep_passes (f := .vfNorm) hslot1 hslot2 hnorm)
  hrecon.move nofun (ht ▸ verifyReconStep_inState (f := .vfRecon) hslot1 hslot2)

theorem reaches_vfMerge (h : Decoded C s1 s2 s) (hnorm : normOk s.ps s1 s2 = true)
    (ht : reconstruct s.build s.ps s.pk s1 s2 = t) (hm1 : recoverM1 C s.ps s.acfg.oracle t = m1)
    (hrecover : recoverOk s.ps m1 = true) :
    Reaches C .verifyRec s (inState .vfMerge (recoveredWords s1 s2 t m1 s) s.tbasis s) :=
  have hslot := slotVec_reconWords h.ready.1 (h.target_inRange ht)
  (h.reaches_vfRecover hnorm ht).move nofun (verifyRecoverStep_passes (f := .vfRecover) hslot hm1 hrecover)

theorem reaches_vfTag (h : Decoded C s1 s2 s) (hnorm : normOk s.ps s1 s2 = true)
    (ht : reconstruct s.build s.ps s.pk s1 s2 = t) (hm1 : recoverM1 C s.ps s.acfg.oracle t = m1)
    (hrecover : recoverOk s.ps m1 = true) (hcap : a1Of s.ps + s.msgLen.toNat ≤ s.build.msgCap) :
    Reaches C .verifyRec s (inState .vfTag (recoveredWords s1 s2 t m1 s) s.tbasis s) :=
  (h.reaches_vfMerge hnorm ht hm1 hrecover).move nofun (verifyMergeStep_passes (f := .vfMerge) hcap)

/-! ### The verdict of each check -/

theorem rejects_norm (h : Decoded C s1 s2 s) (hnorm : ¬normOk s.ps s1 s2 = true) :
    runWith C .verifyRec s = .next (rejected (windowStore .msg [] s)) :=
  have ⟨hslot1, hslot2⟩ := h.slots
  h.reaches_vfNorm.rejectsRec nofun (verifyRecNormStep_rejects hslot1 hslot2 hnorm)

theorem rejects_recover (h : Decoded C s1 s2 s) (hnorm : normOk s.ps s1 s2 = true)
    (ht : reconstruct s.build s.ps s.pk s1 s2 = t) (hm1 : recoverM1 C s.ps s.acfg.oracle t = m1)
    (hrecover : ¬recoverOk s.ps m1 = true) : runWith C .verifyRec s = .next (rejected (windowStore .msg [] s)) :=
  have hslot := slotVec_reconWords h.ready.1 (h.target_inRange ht)
  (h.reaches_vfRecover hnorm ht).rejectsRec nofun (verifyRecoverStep_rejects hslot hm1 hrecover)

theorem rejects_merge (h : Decoded C s1 s2 s) (hnorm : normOk s.ps s1 s2 = true)
    (ht : reconstruct s.build s.ps s.pk s1 s2 = t) (hm1 : recoverM1 C s.ps s.acfg.oracle t = m1)
    (hrecover : recoverOk s.ps m1 = true) (hcap : s.build.msgCap < a1Of s.ps + s.msgLen.toNat) :
    runWith C .verifyRec s = .next (rejected (windowStore .msg [] s)) :=
  (h.reaches_vfMerge hnorm ht hm1 hrecover).rejectsRec nofun (verifyMergeStep_rejects hcap)

theorem rejects_tag (h : Decoded C s1 s2 s) (hnorm : normOk s.ps s1 s2 = true)
    (ht : reconstruct s.build s.ps s.pk s1 s2 = t) (hm1 : recoverM1 C s.ps s.acfg.oracle t = m1)
    (hrecover : recoverOk s.ps m1 = true) (hcap : a1Of s.ps + s.msgLen.toNat ≤ s.build.msgCap)
    (hmm : merge s.build.bitOrder s.ps m1 (message s) = mm)
    (htag : ¬cteq s.ps.k (roTag C s.ps s.acfg.oracle mm) (recoverTag s.ps t) = true) :
    runWith C .verifyRec s = .next (rejected (windowStore .msg [] s)) :=
  have ⟨hslotM1, hslotT2⟩ := slotVec_recoveredWords (s1 := s1) (s2 := s2) h.ready.1 (h.target_inRange ht) hm1
  (h.reaches_vfTag hnorm ht hm1 hrecover hcap).rejectsRec nofun (verifyTagStep_rejects hslotM1 hslotT2 hmm htag)

end Decoded

/-! ### The checks as the statement writes them out -/

/-- The recovered bits the statements write out are the model's (R80). -/
theorem recoverM1_eq_recoveredM1 (C : Collab) (s : State) (t : List Int) :
    recoverM1 C s.ps s.acfg.oracle t = recoveredM1 C s t := by
  refine vec_congr fun i hi => ?_
  rw [mixTag, coef_vec_lt _ hi]
  rfl

theorem recoverOk_iff {ps : ParamSet} :
    recoverOk ps m1 = true ↔ ∀ i < ps.n - ps.k, coef m1 i < 2 ^ (ps.qBits - 1) := by
  simp only [recoverOk, List.all_eq_true, List.mem_range, decide_eq_true_iff]
  exact Iff.rfl

theorem cteq_recoverTag_iff {ps : ParamSet} {v : List Int} :
    cteq ps.k v (recoverTag ps t) = true ↔ ∀ j < ps.k, coef v j = coef t (ps.n - ps.k + j) := by
  simp +contextual [cteq, recoverTag, coef_vec_lt]

/-- Settles O38: where the checks before it have passed, each check rejects or leads on to the next. -/
theorem verifyRecDecidesInOrder : Obligations.VerifyRecDecidesInOrder := by
  intro s h
  rw [exec_eq_runWith]
  dsimp only
  split
  · rename_i s1 s2 hu
    have hdec := decoded_of_unpacks h hu
    have hm1 := recoverM1_eq_recoveredM1 Config.collab s (reconstruct s.build s.ps s.pk s1 s2)
    split_ifs with hnorm hrecover hcap htag
    · exact hdec.rejects_merge ((normOk_iff ..).2 hnorm) rfl hm1 (recoverOk_iff.2 hrecover) hcap
    · exact runWith_verifyRec_accepts h hdec.signed1 hdec.signed2 hu ((normOk_iff ..).2 hnorm) rfl hm1
        (recoverOk_iff.2 hrecover) (not_lt.1 hcap) rfl (cteq_recoverTag_iff.2 htag)
    · exact hdec.rejects_tag ((normOk_iff ..).2 hnorm) rfl hm1 (recoverOk_iff.2 hrecover) (not_lt.1 hcap) rfl
        (mt cteq_recoverTag_iff.1 htag)
    · exact hdec.rejects_recover ((normOk_iff ..).2 hnorm) rfl hm1 (mt recoverOk_iff.1 hrecover)
    · exact hdec.rejects_norm (mt (normOk_iff ..).1 hnorm)
  · rename_i hu
    exact runWith_verifyRec_undecoded h hu

/-- Settles O40: in the verdicts of O37 and O38 the norm decides before anything else of a decoded signature. -/
theorem normAtTheBoundIsRejected : Obligations.NormAtTheBoundIsRejected := by
  intro s s1 s2
  refine ⟨fun h hbound hu => ?_, fun h hu hs2 hbound => ?_⟩
  · rw [verifyRecDecidesInOrder s h, hu]
    exact congrArg _ (if_pos (not_lt.2 hbound))
  · subst hs2
    rw [verifyDecidesByTheNorm s h, hu]
    exact congrArg _ (if_neg (not_lt.2 hbound))

end Sys2Proof.Proofs.VerifyRecVerdict
end

section
/-! The state a rejection leaves does not depend on the check that failed: what a verifying command may hold before its end, and how
a run ends (10_state.md R36; 46_verify.md R117, R118). -/

namespace Sys2Proof.Proofs.UniformRejections

open Sys2Proof Sys2Proof.Machine Sys2Proof.Claims Sys2Proof.Proofs.Configure Sys2Proof.Proofs.Runs
  Sys2Proof.Proofs.Rejections

variable {C : Collab} {i : Instr} {s t u z : State} {f : Fsm} {x : Scratch} {b : Basis}

/-! ### A verdict on the way -/

/-- What a command that started in `s` holds until its end: SCRATCH, TBASIS and `st` at its work, then a verdict, and the end; where
it rejects, the ending sequence leaves `rejected z`, whatever else it held (R118). -/
inductive Judging (z s : State) : State → Prop
  | works (f : Fsm) (x : Scratch) (b : Basis) : Judging z s (inState f x b s)
  | decided {t : State} (hb : t.status.busy = true) (hst : t.st = .finish)
      (h : t.status.reject = true → endCommand t = rejected z) : Judging z s t
  | ended {t : State} (hb : t.status.busy = false) (h : t.status.reject = true → t = rejected z) : Judging z s t

namespace Judging

/-- A rejection made where the windows are those of `z` (R128). -/
theorem reject (hb : z.status.busy = true) : Judging z s (reject (inState f x b z)) :=
  .decided hb rfl fun _ => endCommand_reject_inState

theorem accept (hb : t.status.busy = true) (hr : t.status.reject = false) : Judging z s (accept t) :=
  .decided hb rfl fun h => absurd (hr.symm.trans h) nofun

theorem dispatchStep (hb : s.status.busy = true) (hr : s.status.reject = false) (first : Fsm) :
    Judging z s (dispatchStep i first (inState f x b s)) := by
  unfold Machine.dispatchStep
  split
  · exact .decided hb rfl fun h => absurd (hr.symm.trans h) nofun
  · exact .works first x b

theorem endCommand (hr : s.status.reject = false) : Judging z s (endCommand (inState f x b s)) :=
  .ended rfl fun h => absurd (hr.symm.trans h) nofun

/-- What the command's transitions keep while it works, its every move keeps (R34). -/
theorem move (h : Judging z s t) (hi : i ≠ .destroy) (hb : t.status.busy = true)
    (hworks : ∀ f x b, Judging z s (transition C i (inState f x b s))) :
    Judging z s (whenAnswered C i (transition C i) t) := by
  rcases whenAnswered_cases C i (transition C i) t with e | e <;> rw [e]
  · exact h
  · cases h with
    | works f x b => exact hworks f x b
    | decided _ hst hend =>
      rw [transition_finish C i hst, if_neg hi]
      exact .ended rfl hend
    | ended hidle => exact absurd (hidle.symm.trans hb) nofun

end Judging

/-! ### The end of a run -/

/-- A run that is still busy waits: one more move would change nothing (R36, R48). -/
theorem runSteps_busy_fixed (hu : runSteps (whenAnswered C i (transition C i)) (enoughSteps s) s = u)
    (hb : u.status.busy = true) : whenAnswered C i (transition C i) u = u := by
  have hmore := runSteps_enoughSteps C i s (Nat.le_add_right _ 1)
  rwa [runSteps_add, hu, runSteps_busy hb] at hmore

/-- A run does not stop in FINISH. -/
theorem runSteps_not_finish (hu : runSteps (whenAnswered C i (transition C i)) (enoughSteps s) s = u)
    (hst : u.st = .finish) : u.status.busy = false := by
  by_contra hb
  rw [Bool.not_eq_false] at hb
  have hfixed := runSteps_busy_fixed hu hb
  rw [whenAnswered_ends (.inr hst), transition_finish C i hst] at hfixed
  exact absurd ((congrArg (fun v : State => v.status.busy) hfixed).trans hb) nofun

/-- A verifying command that has rejected has left the one state of a rejection (R118). -/
theorem rejected_of_exec (hr : s.status.reject = false) (hi : i ≠ .destroy)
    (hworks : ∀ f x b, Judging z s (transition Config.collab i (inState f x b s))) (hexec : exec i s = .next t)
    (ht : t.status.reject = true) : t = rejected z := by
  rw [exec_eq_runCommand] at hexec
  obtain ⟨-, hrun⟩ := runCommand_next hexec
  have hjudging : Judging z s t := hrun ▸ runSteps_keeps (fun _ hb h => h.move hi hb hworks) _ (.works s.st s.scratch s.tbasis)
  cases hjudging with
  | works => exact absurd (hr.symm.trans ht) nofun
  | decided hb hst => exact absurd ((runSteps_not_finish hrun.symm hst).symm.trans hb) nofun
  | ended _ h => exact h ht

/-! ### VERIFY and VERIFY_REC, state by state -/

/-- A rejection of VERIFY_REC zeroes the MSG window, whatever check failed (R117). -/
theorem judging_rejectRec (hb : s.status.busy = true) :
    Judging (windowStore .msg [] s) s (rejectRec (inState f x b s)) := by
  rw [rejectRec_inState]
  exact .reject (by rw [windowStore_status]; exact hb)

section
variable (hb : s.status.busy = true) (hr : s.status.reject = false)
include hb hr

theorem judging_verifyStep (C : Collab) (f : Fsm) (x : Scratch) (b : Basis) :
    Judging s s (verifyStep C (inState f x b s)) := by
  unfold verifyStep
  split
  · exact .dispatchStep hb hr _
  · unfold verifyDecodeStep
    split
    · exact .works .vfOracle _ b
    · exact .reject hb
  · exact .works .vfNorm _ b
  · unfold verifyNormStep
    dsimp only
    split
    · exact .accept hb hr
    · exact .reject hb
  · exact .endCommand hr
  · exact .works f x b

theorem judging_verifyRecStep (C : Collab) (f : Fsm) (x : Scratch) (b : Basis) :
    Judging (windowStore .msg [] s) s (verifyRecStep C (inState f x b s)) := by
  have rejects := judging_rejectRec (f := f) (x := x) (b := b) hb
  unfold verifyRecStep
  split
  · exact .dispatchStep hb hr _
  · unfold verifyRecDecodeStep
    split
    · exact .works .vfNorm _ b
    · exact rejects
  · unfold verifyRecNormStep
    split
    · exact .works .vfRecon x b
    · exact rejects
  · exact .works .vfRecover _ b
  · unfold verifyRecoverStep
    dsimp only
    split
    · exact .works .vfMerge _ b
    · exact rejects
  · unfold verifyMergeStep
    split
    · exact rejects
    · exact .works .vfTag x b
  · unfold verifyTagStep
    dsimp only
    split
    · exact .accept (by rw [windowStore_status]; exact hb) (by rw [windowStore_status]; exact hr)
    · exact rejects
  · exact .endCommand hr
  · exact .works f x b

end

/-- Settles O39: every rejection is the same one, and the ending sequence scrubs what led to it. -/
theorem rejectionsAreUniform : Obligations.RejectionsAreUniform := by
  rintro s t ⟨hb, -⟩ hr ht
  exact ⟨fun hexec => rejected_of_exec (i := .verify) hr nofun (judging_verifyStep hb hr _) hexec ht,
    fun hexec => rejected_of_exec (i := .verifyRec) hr nofun (judging_verifyRecStep hb hr _) hexec ht⟩

end Sys2Proof.Proofs.UniformRejections
end

section
/-! The checks of DISPATCH (60_exceptions.md R122, R126): each check of the model is a row of the table, and the first that fails
decides. -/

namespace Sys2Proof.Proofs.DispatchChecks

open Sys2Proof Sys2Proof.Machine Sys2Proof.Claims Sys2Proof.Proofs.Configure

variable (i : Instr) (s : State)

/-! ### One check each -/

/-- Check 4: only KEYGEN, the signing and the verifying commands belong to a family a build may lack. -/
theorem familyBuilt_eq_false_iff (b : Build) : familyBuilt b i = false ↔ (i = .keygen ∧ b.keygen = false)
    ∨ (i ∈ [.sign, .signRec] ∧ b.sign = false) ∨ (i ∈ [.verify, .verifyRec] ∧ b.verify = false) := by
  cases i <;> simp [familyBuilt]

/-- Check 5 as `configuredChecks` makes it. -/
def wrongVariant (i : Instr) (v : Variant) : Bool := (neededVariant i).any fun w => decide (v ≠ w)

/-- Check 5: each signing and verifying command is of one variant. -/
theorem wrongVariant_iff (v : Variant) : wrongVariant i v = true ↔
    (i ∈ [.sign, .verify] ∧ v = .recovery) ∨ (i ∈ [.signRec, .verifyRec] ∧ v = .plain) := by
  cases i <;> cases v <;> decide

/-- Check 6: signing and exporting need the key they use. -/
theorem keyPresent_eq_false_iff (f : Status) : keyPresent f i = false ↔
    (i ∈ [.sign, .signRec, .storeSk] ∧ f.skValid = false) ∨ (i ∈ [.verify, .verifyRec, .storePk] ∧ f.pkValid = false) := by
  cases i <;> simp [keyPresent]

theorem lengthFits_iff (win : Window) : lengthFits s win = true ↔ (windowLen s win).toNat ≤ windowCap s.build win :=
  decide_eq_true_iff

/-- Check 7: a command's inputs are the message, the signature or the key it imports. -/
theorem inputsFit_eq_false_iff : (inputWindows i).all (lengthFits s) = false ↔
    (i ∈ [.sign, .signRec, .verify, .verifyRec] ∧ s.build.msgCap < s.msgLen.toNat)
      ∨ (i ∈ [.verify, .verifyRec] ∧ s.build.sigCap < s.sigLen.toNat)
      ∨ (i = .loadPk ∧ s.build.pkCap < s.pkLen.toNat) ∨ (i = .loadSk ∧ s.build.skCap < s.skLen.toNat) := by
  simp only [List.all_eq_false, lengthFits_iff, not_le]
  cases i <;> simp [inputWindows, windowLen, windowCap]

/-! ### The order of the checks -/

/-- Checks 3 to 7 with each check as its lemma above writes it. -/
theorem configuredChecks_eq : configuredChecks i s =
    if s.status.configured = false then some .nullPointer
    else if familyBuilt s.build i = false then some .disabledAtCompileTime
    else if wrongVariant i s.acfg.variant = true then some .outOfBounds
    else if keyPresent s.status i = false then some .nullPointer
    else if (inputWindows i).all (lengthFits s) = false then some .outOfBounds
    else none := by
  unfold configuredChecks wrongVariant
  cases neededVariant i <;> simp only [Bool.not_eq_true', Option.any_none, Option.any_some]

/-- CONFIGURE and DESTROY apart, a command meets checks 3 to 7. -/
theorem dispatchError_eq_configuredChecks {i : Instr} (hd : i ≠ .destroy) (hc : i ≠ .configure) (s : State) :
    dispatchError i s = configuredChecks i s := by
  unfold dispatchError
  split
  · exact absurd rfl hc
  · exact absurd rfl hd
  · rfl

/-- Settles O20: CONFIGURE and DESTROY apart, the checks in their order, each as the table writes it. -/
theorem firstFailingCheckDecides : Obligations.FirstFailingCheckDecides := by
  intro i s
  by_cases hd : i = .destroy
  · rw [if_pos hd, hd]
    rfl
  by_cases hc : i = .configure
  · rw [if_neg hd, if_pos hc, hc]
    rfl
  rw [if_neg hd, if_neg hc, dispatchError_eq_configuredChecks hd hc, configuredChecks_eq]
  simp only [familyBuilt_eq_false_iff, wrongVariant_iff, keyPresent_eq_false_iff, inputsFit_eq_false_iff]

/-- Settles O19: the failing check raises its error in DISPATCH, and the ending sequence follows. -/
theorem dispatchFailureChangesOnlyStatus : Obligations.DispatchFailureChangesOnlyStatus :=
  fun _ _ _ hd he => exec_atDispatch_error hd he

end Sys2Proof.Proofs.DispatchChecks
end

section
/-! Where `st` is on its path a step runs on (60_exceptions.md R120, R124; 10_state.md R34). -/

namespace Sys2Proof.Proofs.Progress

open Sys2Proof Sys2Proof.Machine Sys2Proof.Claims Sys2Proof.Proofs.Running Sys2Proof.Proofs.Waiting

variable {s : State}

/-- What runs is a command on its path, or an illegal word in one of its two states (R34, R51). -/
theorem running_cases (h : ControlInv s) (hb : s.status.busy = true) :
    (∃ i, decode s.curCmd = .ok i ∧ onPath i s = true)
      ∨ ∃ e, decode s.curCmd = .error e ∧ (s.status.busy && [Fsm.dispatch, Fsm.finish].contains s.st) = true := by
  obtain ⟨-, hpath⟩ := h
  have hplace := hpath hb
  cases hd : decode s.curCmd with
  | ok i =>
    rw [hd] at hplace
    exact .inl ⟨i, rfl, onPath_iff.2 ⟨hb, hplace⟩⟩
  | error e =>
    rw [hd] at hplace
    exact .inr ⟨e, rfl, by simpa [hb, List.contains_iff_mem] using hplace⟩

/-- It runs on to its end or to where it waits (R36). -/
theorem runCurrent_next (h : ControlInv s) (hb : s.status.busy = true) : ∃ t, runCurrent s = .next t := by
  unfold runCurrent
  rcases running_cases h hb with ⟨i, hd, hp⟩ | ⟨e, hd, hp⟩ <;> rw [hd]
  · exact ⟨_, exec_onPath hp⟩
  · exact ⟨_, if_pos hp⟩

/-- It makes its next transition (R34). -/
theorem advanceCurrent_next (h : ControlInv s) (hb : s.status.busy = true) : ∃ t, advanceCurrent s = .next t := by
  unfold advanceCurrent
  rcases running_cases h hb with ⟨i, hd, hp⟩ | ⟨e, hd, hp⟩ <;> rw [hd]
  · exact ⟨_, if_pos hp⟩
  · exact ⟨_, if_pos hp⟩

/-- Settles O53: an access always answers, and the collaborators' turn leaves a running command on its path. -/
theorem theBlockNeverStops : Obligations.TheBlockNeverStops := by
  intro s h
  unfold StepsOn
  rcases step_cases s with ⟨-, -, e⟩ | ⟨hb, e, -⟩ | ⟨a, r, -, -, e⟩ | ⟨hb, k, ev, r, -, e⟩ <;> rw [e]
  · exact ⟨_, rfl⟩
  · exact runCurrent_next (s := receive s) h hb
  · exact ⟨_, rfl⟩
  · exact advanceCurrent_next (s := receive { s with inbox := ⟨some k, ev⟩ :: r }) h hb

end Sys2Proof.Proofs.Progress
end

section
/-! The interrupt output (60_exceptions.md R124, R131): every end of a command raises DONE, and what lowers irq. -/

namespace Sys2Proof.Proofs.Interrupts

open Sys2Proof Sys2Proof.Machine Sys2Proof.Claims Sys2Proof.Proofs.Registers Sys2Proof.Proofs.Frames
  Sys2Proof.Proofs.Encoding

variable {i : Instr} {s t : State}

/-- irq is bit 1 of STATUS and bit 0 of CTRL as the host reads them. -/
theorem irq_eq_read_bits (s : State) :
    irq s = ((busReadData 0x014 s).getLsbD 1 && (busReadData 0x018 s).getLsbD 0) := by
  rw [busReadData_reg (r := .status) rfl, busReadData_reg (r := .ctrl) rfl, readReg, readReg, ctrlWord_bit0,
    statusWord_flag _ (by decide), hostView_ie]
  exact congrArg (· && s.ie) (hostView_done s).symm

/-- A command that is no longer busy has come through the ending sequence, which sets DONE (R124). -/
theorem done_of_exec (h : exec i s = .next t) (hb : t.status.busy = false) : t.status.done = true := by
  rw [exec_eq_runCommand] at h
  obtain ⟨hp, rfl⟩ := runCommand_next h
  have hstart : s.status.busy = false → s.status.done = true := by
    rw [Running.busy_of_onPath hp]
    exact nofun
  refine runSteps_keeps (P := fun u => u.status.busy = false → u.status.done = true) (fun u hu hdone => ?_) _ hstart hb
  rcases whenAnswered_cases Config.collab i (transition Config.collab i) u with e | e <;> rw [e]
  · exact hdone
  · by_cases hf : u.st = .finish
    · rw [transition_finish _ i hf]
      exact fun _ => rfl
    · rw [transition_busy _ i u hf, hu]
      exact nofun

/-- An illegal word ends in one step, from DISPATCH or from FINISH (R51). -/
theorem runIllegal_ends (h : runIllegal s = .next t) : t.status.busy = false ∧ t.status.done = true ∧ t.ie = s.ie := by
  have hst : s.status.busy = true ∧ (s.st = .dispatch ∨ s.st = .finish) := by
    unfold runIllegal at h
    split at h
    · rename_i hrun
      simpa only [Bool.and_eq_true, List.contains_iff_mem, List.mem_cons, List.not_mem_nil, or_false] using hrun
    · cases h
  obtain ⟨hb, hst | hst⟩ := hst
  · rw [runIllegal_atDispatch ⟨hb, hst⟩] at h
    cases h
    exact ⟨rfl, rfl, rfl⟩
  · have hend : illegalStep s = endCommand s := by rw [illegalStep, hst]
    rw [runIllegal, hb, hst, if_pos (by decide), runSteps_busy hb, hend, runSteps_idle rfl] at h
    cases h
    exact ⟨rfl, rfl, rfl⟩

theorem irq_of_done (hd : t.status.done = true) (hie : t.ie = s.ie) : irq t = s.ie := by
  rw [irq, hd, hie, Bool.true_and]

/-- Settles O17: the two bits, DONE at every end, and each access that lowers one of the two. -/
theorem interruptFollowsDoneAndEnable : Obligations.InterruptFollowsDoneAndEnable := by
  intro s
  refine ⟨irq_eq_read_bits s, fun i t h hb => ?_, fun e t _ h => ?_, ?_, fun w be hb => ?_, fun hb => ?_, rfl⟩
  · have hdone := done_of_exec h hb
    exact ⟨hdone, irq_of_done hdone (frame_of_exec h).ie⟩
  · obtain ⟨hb, hdone, hie⟩ := runIllegal_ends h
    exact ⟨hb, hdone, irq_of_done hdone hie⟩
  · rw [hostEvent, busWrite_reg (r := .status) rfl, writeReg, irq, statusWrite]
    have hbit : ((0x00000602 : Word) &&& laneMask 0xF).getLsbD 1 = true := by decide
    rw [hbit]
    simp
  · rw [hostEvent, busWrite_reg (r := .cmd) rfl, writeReg, hb, if_neg Bool.false_ne_true, irq]
    rfl
  · rw [hostEvent, busWrite_reg (r := .ctrl) rfl, writeReg, unlessBusy_idle hb, irq, mergeLanes_bit _ _ _ (by decide)]
    simp

end Sys2Proof.Proofs.Interrupts
end

section
/-! The memory frame (60_exceptions.md R126; 70_reset_and_hazards.md R145, R147): a transition leaves the window bytes alone, or
stores bytes that fit a window its command writes. -/

namespace Sys2Proof.Proofs.MemoryFrame

open Sys2Proof Sys2Proof.Machine Sys2Proof.Claims Sys2Proof.Proofs.Transitions Sys2Proof.Proofs.StepInvariants
  Sys2Proof.Proofs.Scope Sys2Proof.Proofs.KeygenRound Sys2Proof.Proofs.Signing Sys2Proof.Proofs.DispatchChecks

variable {C : Collab} {i : Instr} {s t u : State}

/-- Between `s` and `t` command `i` has stored nothing, or bytes that fit one of its windows. -/
inductive Stores (i : Instr) (s t : State) : Prop
  | nothing (h : t.mem = s.mem)
  | bytes (win : Window) (bs : List Byte) (hw : win ∈ writtenWindows i) (hfit : bs.length ≤ windowCap s.build win)
      (h : t.mem = (windowStore win bs s).mem)

/-! ### What keeps the stored bytes within their windows -/

/-- The message fits its window (R122). -/
def MessageFits (s : State) : Prop := s.msgLen.toNat ≤ s.build.msgCap

/-- The merged message fits the MSG window (R115). -/
def MergedFits (s : State) : Prop := a1Of s.ps + s.msgLen.toNat ≤ s.build.msgCap

/-- The states of SIGN_REC past DISPATCH. -/
def signingStates : List Fsm := [.sgOracle, .sgBasis, .sgSample, .sgEncode, .sgCompact]

/-- What SIGN_REC and VERIFY_REC know of the message before they rewrite it: DISPATCH and VF_MERGE have checked its length. -/
structure Checked (i : Instr) (s : State) : Prop where
  signRec : i = .signRec → s.st ∈ signingStates → MessageFits s
  verifyRec : i = .verifyRec → s.st = .vfTag → MergedFits s

theorem checked_atDispatch (hst : s.st = .dispatch) : Checked i s :=
  ⟨fun _ h => absurd (hst ▸ h) (by decide), fun _ h => absurd (hst.symm.trans h) (by decide)⟩

/-- Beyond DISPATCH every input length fits its window (R122). -/
theorem inputsFit_of_dispatch (h : dispatchError i s = none) : (inputWindows i).all (lengthFits s) = true := by
  by_cases hd : i = .destroy
  · rw [hd]
    rfl
  by_cases hc : i = .configure
  · rw [hc]
    rfl
  rw [dispatchError_eq_configuredChecks hd hc, configuredChecks_eq] at h
  split_ifs at h with _ _ _ _ hfit
  exact (Bool.not_eq_false _).mp hfit

theorem messageFits_of_dispatch (h : dispatchError .signRec s = none) : MessageFits s :=
  (lengthFits_iff s .msg).1 (List.all_eq_true.1 (inputsFit_of_dispatch h) .msg (by decide))

/-- An idle block is in none of the states that `Checked` speaks of (R124). -/
theorem idleState_not_checked (f : Status) : idleState f ∉ .vfTag :: signingStates := by
  unfold idleState
  split <;> decide

/-- SIGN_REC leaves MSG_LEN alone until it rewrites the message (R110). -/
theorem messageFits_signRecStep (h : s.st ∈ signingStates → MessageFits s) (ht : (signRecStep C s).st ∈ signingStates) :
    MessageFits (signRecStep C s) := by
  have finish : Fsm.finish ∉ signingStates := by decide
  have fits {f : Fsm} (hst : s.st = f) (hf : f ∈ signingStates := by decide) : MessageFits s := h (hst ▸ hf)
  revert ht
  unfold signRecStep
  split
  · unfold dispatchStep
    split
    · exact fun hf => absurd hf finish
    · exact fun _ => messageFits_of_dispatch ‹_›
  · exact fun _ => fits ‹_›
  · rw [signBasisStep, getBasis_eq]
    exact fun _ => fits ‹_›
  · unfold signSampleStep
    split
    · exact fun _ => fits ‹_›
    · exact fun hf => absurd hf finish
    · rw [releaseBasis_eq]
      exact fun _ => fits ‹_›
  · unfold signEncodeStep
    split
    · exact fun hf => absurd hf finish
    · exact fun _ => fits ‹_›
  · exact fun hf => absurd hf finish
  · exact fun hf => absurd (List.mem_cons_of_mem _ hf) (idleState_not_checked _)
  · exact h

/-- Only VF_MERGE leads to VF_TAG, and it checks the merged length (R115). -/
theorem mergedFits_verifyRecStep (h : s.st = .vfTag → MergedFits s) (ht : (verifyRecStep C s).st = .vfTag) :
    MergedFits (verifyRecStep C s) := by
  revert ht
  unfold verifyRecStep
  split
  · unfold dispatchStep
    split <;> exact nofun
  · unfold verifyRecDecodeStep
    split <;> exact nofun
  · unfold verifyRecNormStep
    split <;> exact nofun
  · exact nofun
  · unfold verifyRecoverStep
    dsimp only
    split <;> exact nofun
  · unfold verifyMergeStep
    split
    · exact nofun
    · exact fun _ => not_lt.1 ‹_›
  · unfold verifyTagStep
    dsimp only
    split <;> exact nofun
  · exact fun hf => absurd (List.mem_cons.2 (.inl hf)) (idleState_not_checked _)
  · exact h

/-- A public key's wire form fits the PK window of a configured block (R84, R108). -/
theorem packPk_fits (hi : ConfigInv s) (hb : s.status.busy = true) (hst : s.st = .kyEncode) :
    (packPk C s).length ≤ s.build.pkCap := by
  have hc := configured_of_running hi hb (hst ▸ by decide)
  have hstorage := hi.1 hc
  simp only [storageFits, Bool.and_eq_true, decide_eq_true_eq] at hstorage
  have hlen : (packPk C s).length = byteCount (s.ps.n * s.ps.qBits) := by
    simp [packPk, pack, encodeElem_length, pkElem]
  omega

/-! ### What each transition stores -/

theorem Stores.zeroed {win : Window} (hw : win ∈ writtenWindows i) (h : t.mem = (windowStore win [] s).mem) :
    Stores i s t := .bytes win [] hw (Nat.zero_le _) h

theorem dispatchStep_stores (i : Instr) (first : Fsm) (s : State) : Stores i s (dispatchStep i first s) := by
  unfold dispatchStep
  split <;> exact .nothing rfl

theorem configureStep_stores (s : State) : Stores .configure s (configureStep s) := by
  unfold configureStep
  split
  · exact dispatchStep_stores ..
  · unfold cfValidateStep
    split <;> exact .nothing rfl
  · exact .nothing rfl
  · exact .nothing rfl

theorem keygenStep_stores (C : Collab) (s : State) : Stores .keygen s (keygenStep C s) := by
  unfold keygenStep
  split
  · exact dispatchStep_stores ..
  · unfold kgGenerateStep
    split <;> exact .nothing rfl
  · exact .nothing (holdBasis_mem ..)
  · unfold kgSampleStep
    split
    · exact .nothing rfl
    · exact .nothing (releaseBasis_mem _)
    · exact .nothing (releaseBasis_mem _)
  · unfold kgTestStep
    split <;> exact .nothing rfl
  · exact .nothing rfl
  · exact .nothing rfl
  · exact .nothing rfl

theorem loadSkStep_stores (C : Collab) (s : State) : Stores .loadSk s (loadSkStep C s) := by
  unfold loadSkStep
  split
  · exact dispatchStep_stores ..
  · unfold loadSkDecodeStep
    split
    · dsimp only
      split <;> exact .nothing rfl
    · exact .nothing rfl
  · exact .nothing rfl
  · exact .nothing rfl
  · exact .nothing rfl

theorem loadPkStep_stores (C : Collab) (s : State) : Stores .loadPk s (loadPkStep C s) := by
  unfold loadPkStep
  split
  · exact dispatchStep_stores ..
  · unfold loadPkDecodeStep
    split <;> exact .nothing rfl
  · exact .nothing rfl
  · exact .nothing rfl

theorem storeSkStep_stores (C : Collab) (s : State) : Stores .storeSk s (storeSkStep C s) := by
  unfold storeSkStep
  split
  · exact dispatchStep_stores ..
  · unfold storeSkEncodeStep
    dsimp only
    split
    · exact .nothing rfl
    · exact .bytes .sk _ (by decide) (not_lt.1 ‹_›) rfl
  · exact .nothing rfl
  · exact .nothing rfl

theorem storePkStep_stores (hi : ConfigInv s) (hb : s.status.busy = true) : Stores .storePk s (storePkStep C s) := by
  unfold storePkStep
  split
  · exact dispatchStep_stores ..
  · exact .bytes .pk _ (by decide) (packPk_fits hi hb ‹_›) rfl
  · exact .nothing rfl
  · exact .nothing rfl

theorem signSampleStep_stores (hw : .sig ∈ writtenWindows i) (two : Bool) (s : State) :
    Stores i s (signSampleStep two s) := by
  unfold signSampleStep
  split
  · exact .nothing rfl
  · rw [signFail, windowZero_eq, releaseBasis_eq]
    exact .zeroed hw rfl
  · refine .nothing ((releaseBasis_mem _).trans ?_)
    split <;> rfl

theorem signEncodeStep_stores (hw : .sig ∈ writtenWindows i) (bs : List Byte) {andThen : State → State}
    (hthen : ∀ u, (andThen u).mem = u.mem) (s : State) : Stores i s (signEncodeStep bs andThen s) := by
  unfold signEncodeStep
  split
  · exact .zeroed hw rfl
  · exact .bytes .sig bs hw (not_lt.1 ‹_›) (hthen _)

theorem signStep_stores (C : Collab) (s : State) : Stores .sign s (signStep C s) := by
  unfold signStep
  split
  · exact dispatchStep_stores ..
  · exact .nothing rfl
  · exact .nothing (getBasis_mem ..)
  · exact signSampleStep_stores (by decide) ..
  · refine signEncodeStep_stores (by decide) _ ?_ s
    exact fun _ => rfl
  · exact .nothing rfl
  · exact .nothing rfl

theorem signRecStep_stores (hc : Checked .signRec s) : Stores .signRec s (signRecStep C s) := by
  unfold signRecStep
  split
  · exact dispatchStep_stores ..
  · exact .nothing rfl
  · exact .nothing (getBasis_mem ..)
  · exact signSampleStep_stores (by decide) ..
  · refine signEncodeStep_stores (by decide) _ ?_ s
    exact fun _ => rfl
  · rename_i hst
    have hfits : s.msgLen.toNat ≤ s.build.msgCap := hc.signRec rfl (hst ▸ by decide)
    refine .bytes .msg _ (by decide) ?_ rfl
    rw [compact_length, message_length]
    exact (Nat.sub_le ..).trans hfits
  · exact .nothing rfl
  · exact .nothing rfl

theorem verifyStep_stores (C : Collab) (s : State) : Stores .verify s (verifyStep C s) := by
  unfold verifyStep
  split
  · exact dispatchStep_stores ..
  · unfold verifyDecodeStep
    split <;> exact .nothing rfl
  · exact .nothing rfl
  · unfold verifyNormStep
    dsimp only
    split <;> exact .nothing rfl
  · exact .nothing rfl
  · exact .nothing rfl

/-- A rejection zeroes the MSG window (R117). -/
theorem rejectRec_stores (s : State) : Stores .verifyRec s (rejectRec s) := .zeroed (win := .msg) (by decide) rfl

theorem verifyRecStep_stores (hc : Checked .verifyRec s) : Stores .verifyRec s (verifyRecStep C s) := by
  unfold verifyRecStep
  split
  · exact dispatchStep_stores ..
  · unfold verifyRecDecodeStep
    split
    · exact .nothing rfl
    · exact rejectRec_stores s
  · unfold verifyRecNormStep
    split
    · exact .nothing rfl
    · exact rejectRec_stores s
  · exact .nothing rfl
  · unfold verifyRecoverStep
    dsimp only
    split
    · exact .nothing rfl
    · exact rejectRec_stores s
  · unfold verifyMergeStep
    split
    · exact rejectRec_stores s
    · exact .nothing rfl
  · rename_i hst
    unfold verifyTagStep
    dsimp only
    split
    · refine .bytes .msg _ (by decide) ?_ rfl
      rw [mergedMessage, merge_length, message_length]
      exact hc.verifyRec rfl hst
    · exact rejectRec_stores s
  · exact .nothing rfl
  · exact .nothing rfl

/-- Every transition of a command but DESTROY's. -/
theorem transition_stores (hi : i ≠ .destroy) (hconf : ConfigInv s) (hb : s.status.busy = true) (hc : Checked i s) :
    Stores i s (transition C i s) := by
  cases i
  case configure => exact configureStep_stores s
  case destroy => exact absurd rfl hi
  case keygen => exact keygenStep_stores C s
  case loadSk => exact loadSkStep_stores C s
  case loadPk => exact loadPkStep_stores C s
  case storeSk => exact storeSkStep_stores C s
  case storePk => exact storePkStep_stores hconf hb
  case sign => exact signStep_stores C s
  case signRec => exact signRecStep_stores hc
  case verify => exact verifyStep_stores C s
  case verifyRec => exact verifyRecStep_stores hc

theorem checked_transition (hc : Checked i s) : Checked i (transition C i s) := by
  refine ⟨?_, ?_⟩
  · rintro rfl
    exact messageFits_signRecStep (hc.signRec rfl)
  · rintro rfl
    exact mergedFits_verifyRecStep (hc.verifyRec rfl)

/-! ### The frame -/

/-- Command `i` has brought `s` to `t` and left every byte outside its windows as it was; and `t` is such that it still will. -/
structure Confined (i : Instr) (s t : State) : Prop where
  build : t.build = s.build
  wf : t.mem.wf
  bytes : ∀ a, (∀ win ∈ writtenWindows i, ¬InWindow s.build win a) → readByte t.mem a = readByte s.mem a
  config : ConfigInv t
  checked : Checked i t

/-- What a transition stores stays in the command's windows. -/
theorem Confined.move (h : Confined i s t) (hi : i ≠ .destroy) (hb : t.status.busy = true) :
    Confined i s (whenAnswered Config.collab i (transition Config.collab i) t) := by
  rcases whenAnswered_cases Config.collab i (transition Config.collab i) t with e | e <;> rw [e]
  · exact h
  obtain ⟨hbuild, hwf, hbytes, hconf, hc⟩ := h
  have heff := transition_effect Config.collab t i
  have hbuild' := (build_effect heff).trans hbuild
  have hconf' := configInv_effect hb heff hconf
  have hc' : Checked i (transition Config.collab i t) := checked_transition hc
  cases transition_stores (C := Config.collab) hi hconf hb hc with
  | nothing hm => exact ⟨hbuild', hm ▸ hwf, fun a ha => hm ▸ hbytes a ha, hconf', hc'⟩
  | bytes win bs hw hfit hm =>
    refine ⟨hbuild', hm ▸ windowStore_wf hwf win bs, fun a ha => ?_, hconf', hc'⟩
    rw [hm, readByte_windowStore_of_not_inWindow hwf hfit (hbuild ▸ ha win hw)]
    exact hbytes a ha

/-- Settles O48: every move of the run keeps to the command's windows. -/
theorem commandsWriteOnlyTheirWindows : Obligations.CommandsWriteOnlyTheirWindows := by
  intro i s t a hd hconf hwf hi h ha
  rw [exec_eq_runCommand] at h
  obtain ⟨-, rfl⟩ := runCommand_next h
  have hstart : Confined i s s := ⟨rfl, hwf, fun _ _ => rfl, hconf, checked_atDispatch hd.2⟩
  exact (runSteps_keeps (fun _ hb hs => hs.move hi hb) _ hstart).bytes a ha

end Sys2Proof.Proofs.MemoryFrame
end

section
/-! Two states that differ only in the secret stores (42_basis.md R95; 60_exceptions.md R132): what reads them alike, and that every
host access does. -/

namespace Sys2Proof.Proofs.Secrets

open Sys2Proof Sys2Proof.Machine Sys2Proof.Claims

variable {s s' u v v' : State}

/-- What does not look at the secret stores is the same in two states that differ only there. -/
theorem eq_of_publicPart_eq {α : Type} (h : publicPart s = publicPart s') (f : State → α)
    (hf : ∀ u, f (publicPart u) = f u) : f s = f s' := by
  rw [← hf s, h, hf s']

theorem publicPart_build (u : State) : (publicPart u).build = u.build := rfl

theorem publicPart_unlessBusy (h : publicPart v = publicPart v') :
    publicPart (unlessBusy (publicPart u) v) = publicPart (unlessBusy u v') := by
  show publicPart (if u.status.busy then _ else _) = publicPart (if u.status.busy then _ else _)
  split
  · rfl
  · exact h

/-- A register write neither reads nor writes a secret store (R14 - R22). -/
theorem publicPart_writeReg (r : Reg) (d : Word) (be : ByteEnables) (u : State) :
    publicPart (writeReg r d be (publicPart u)) = publicPart (writeReg r d be u) := by
  cases r
  case cfg0 | cfg1 =>
    refine publicPart_unlessBusy ?_
    show publicPart (if u.status.configured then _ else _) = _
    split <;> rfl
  case cmd =>
    show publicPart (if u.status.busy then _ else _) = publicPart (if u.status.busy then _ else _)
    split <;> rfl
  case ctrl | msgLen | sigLen | pkLen | skLen => exact publicPart_unlessBusy rfl
  all_goals rfl

/-- No register shows a secret store, while a command runs or not (R14 - R24, R36). -/
theorem readReg_publicPart (r : Reg) (u : State) : readReg (hostView (publicPart u)) r = readReg (hostView u) r := by
  show readReg (if u.status.busy then _ else _) r = readReg (if u.status.busy then _ else _) r
  split <;> cases r <;> rfl

/-- No address shows one (R37 - R42). -/
theorem busReadData_publicPart (a : BusAddr) (u : State) : busReadData a (publicPart u) = busReadData a u := by
  unfold busReadData
  rw [publicPart_build]
  cases busTarget u.build a with
  | reg r => exact readReg_publicPart r u
  | buffer | nothing => rfl

theorem publicPart_busReadEffect (a : BusAddr) (u : State) :
    publicPart (busReadEffect a (publicPart u)) = publicPart (busReadEffect a u) := by
  unfold busReadEffect
  rw [publicPart_build]
  cases busTarget u.build a with
  | buffer => exact publicPart_unlessBusy rfl
  | reg | nothing => rfl

theorem publicPart_busWrite (a : BusAddr) (d : Word) (be : ByteEnables) (u : State) :
    publicPart (busWrite a d be (publicPart u)) = publicPart (busWrite a d be u) := by
  unfold busWrite
  rw [publicPart_build]
  cases busTarget u.build a with
  | reg r => exact publicPart_writeReg r d be u
  | buffer => exact publicPart_unlessBusy rfl
  | nothing => rfl

/-- Every access and the reset treat the public part as they treat the state (R37 - R42, R140). -/
theorem publicPart_hostEvent (e : HostEvent) (u : State) :
    publicPart (hostEvent e (publicPart u)) = publicPart (hostEvent e u) := by
  cases e with
  | rst => rfl
  | write a d be => exact publicPart_busWrite a d be u
  | read a =>
    exact congrArg₂ (fun (v : State) x => { v with rdata := x }) (publicPart_busReadEffect a u) (busReadData_publicPart a u)

/-- Settles O18: an access does to the public part what it does to the state. -/
theorem hostAccessesRevealNoSecret : Obligations.HostAccessesRevealNoSecret := fun _ _ e h =>
  eq_of_publicPart_eq h (fun u => publicPart (hostEvent e u)) (publicPart_hostEvent e)

end Sys2Proof.Proofs.Secrets
end

section
/-! The secrets stay inside (60_exceptions.md R132): two runs of a command from states that differ only in the secret stores. While
a command works the two agree also on the vectors it has put into SCRATCH and reads again, all computed from what the host can
reach; only STORE_SK computes from SK_STORE what it writes into a window. -/

namespace Sys2Proof.Proofs.Noninterference

open Sys2Proof Sys2Proof.Machine Sys2Proof.Claims Sys2Proof.Proofs.Transitions
  Sys2Proof.Proofs.Secrets

variable {C : Collab} {i : Instr} {s s' t t' : State} {l : List Slot}

/-! ### States that agree on the public part and on some vectors of SCRATCH -/

/-- The two states differ only in the secret stores, and of these they agree on the slots `l` of SCRATCH. -/
structure Alike (l : List Slot) (s s' : State) : Prop where
  pub : publicPart s' = publicPart s
  held : ∀ slot ∈ l, ∀ len, scratchVec s' slot len = scratchVec s slot len

namespace Alike

/-- What does not look at the secret stores is the same in both. -/
theorem reads {α : Type} (h : Alike l s s') (f : State → α) (hf : ∀ u, f (publicPart u) = f u := by intro; rfl) :
    f s' = f s := eq_of_publicPart_eq h.pub f hf

theorem ps (h : Alike l s s') : s'.ps = s.ps := h.reads State.ps
theorem st (h : Alike l s s') : s'.st = s.st := h.reads State.st
theorem keep (h : Alike l s s') : s'.acfg.keep = s.acfg.keep := h.reads fun u => u.acfg.keep

/-- An update that leaves SCRATCH alone and treats both alike. -/
theorem map (h : Alike l s s') (g : State → State)
    (hg : ∀ u, publicPart (g (publicPart u)) = publicPart (g u) := by intro; rfl)
    (hx : ∀ u, (g u).build = u.build ∧ (g u).scratch = u.scratch := by intro; exact ⟨rfl, rfl⟩) :
    Alike l (g s) (g s') := by
  refine ⟨h.reads (fun u => publicPart (g u)) hg, fun slot hs len => ?_⟩
  rw [scratchVec_congr (hx s').1 (hx s').2, scratchVec_congr (hx s).1 (hx s).2]
  exact h.held slot hs len

/-- An update that treats both alike but for the secret stores; SCRATCH may change. -/
theorem ends (h : Alike l s s') (g : State → State)
    (hg : ∀ u, publicPart (g (publicPart u)) = publicPart (g u) := by intro; rfl) : Alike [] (g s) (g s') :=
  ⟨h.reads (fun u => publicPart (g u)) hg, nofun⟩

theorem forget (h : Alike l s s') : Alike [] s s' := ⟨h.pub, nofun⟩

/-- Bases of either kind are secret, whatever they are (R95). -/
theorem holds (h : Alike l s s') (b tb b' tb' : Basis) :
    Alike l { s with basis := b, tbasis := tb } { s' with basis := b', tbasis := tb' } :=
  ⟨h.pub, h.held⟩

/-- The same vector put into a slot of both. -/
theorem put (h : Alike l s s') (slot : Slot) (v : List Int) : Alike (slot :: l) (scratchPut slot v s) (scratchPut slot v s') := by
  refine ⟨h.pub, fun slot' hs len => ?_⟩
  have hput (u : State) : scratchVec (scratchPut slot v u) slot' len
      = if slotIndex slot' = slotIndex slot then heldVec u.build v len else scratchVec u slot' len := slotVec_putWords ..
  rw [hput, hput, h.reads State.build]
  split
  · rfl
  · rename_i hne
    exact (List.mem_cons.1 hs).elim (fun he => absurd (congrArg slotIndex he) hne) fun hs => h.held slot' hs len

theorem release (h : Alike l s s') : Alike l (releaseBasis s) (releaseBasis s') := by
  unfold releaseBasis
  rw [h.keep]
  split
  · exact h
  · exact h.holds s.basis Basis.zero s'.basis Basis.zero

theorem getBasis (h : Alike l s s') (C : Collab) : Alike l (getBasis C s) (getBasis C s') := by
  unfold Machine.getBasis
  rw [h.keep]
  split
  · exact h
  · exact h.holds s.basis _ s'.basis _

theorem holdBasis (h : Alike l s s') (b b' : Basis) : Alike l (holdBasis b s) (holdBasis b' s') := by
  unfold Machine.holdBasis
  rw [h.keep]
  split
  · exact h.holds b s.tbasis b' s'.tbasis
  · exact h.holds s.basis b s'.basis b'

end Alike

/-! ### The vectors a command reads again -/

/-- KEYGEN's candidate in SCRATCH, the slot written last first (R97). -/
def candidateSlots : List Slot := [.h, .bigG, .bigF, .g, .f]

/-- Both hold the same candidate. -/
theorem Alike.candidate (h : Alike l s s') (hl : candidateSlots ⊆ l) :
    candidateKey s' = candidateKey s ∧ candidateH s' = candidateH s := by
  have held (slot : Slot) (hs : slot ∈ candidateSlots) (len : Nat) := h.held slot (hl hs) len
  unfold candidateKey candidateH
  rw [h.ps, held .f (by decide), held .g (by decide), held .bigF (by decide), held .bigG (by decide), held .h (by decide)]
  exact ⟨rfl, rfl⟩

/-- What command `i` in state `f` may still read of SCRATCH: slots that it has written itself (R31). -/
def live (i : Instr) : Fsm → List Slot
  | .kgBasis => candidateSlots
  | .kgSample => .target :: candidateSlots
  | .kgTest | .kgCommit => .s1 :: .target :: candidateSlots
  | .sgEncode => if i = .signRec then [.s2, .s1] else [.s1]
  | .vfOracle => [.s1]
  | .vfNorm => if i = .verify then [.target, .s1] else [.s2, .s1]
  | .vfRecon => [.s2, .s1]
  | .vfRecover => [.t]
  | .vfMerge | .vfTag => [.t2, .m1]
  | _ => []

/-- Two states that command `i` runs on from alike. -/
def RunsAlike (i : Instr) (s s' : State) : Prop := Alike (live i s.st) s s'

namespace RunsAlike

theorem at_st {f : Fsm} (h : RunsAlike i s s') (hst : s.st = f) : Alike (live i f) s s' := hst ▸ h

theorem dispatch (h : RunsAlike i s s') {first : Fsm} (hl : live i first = [] := by rfl) :
    RunsAlike i (dispatchStep i first s) (dispatchStep i first s') := by
  unfold dispatchStep
  rw [h.reads (dispatchError i)]
  split
  · exact h.ends (raiseError _)
  · show Alike (live i first) _ _
    rw [hl]
    exact h.ends fun u => { u with st := first }

theorem ended (h : RunsAlike i s s') : RunsAlike i (endCommand s) (endCommand s') := by
  have hl : live i (idleState s.status) = [] := by
    unfold idleState
    split <;> rfl
  show Alike (live i (idleState s.status)) _ _
  rw [hl]
  exact h.ends endCommand

theorem release (h : RunsAlike i s s') : RunsAlike i (releaseBasis s) (releaseBasis s') := by
  unfold RunsAlike
  rw [releaseBasis_st]
  exact Alike.release h

/-! ### CONFIGURE and DESTROY -/

theorem configureStep (h : RunsAlike .configure s s') : RunsAlike .configure (configureStep s) (configureStep s') := by
  unfold Machine.configureStep
  rw [h.st]
  split
  · exact h.dispatch
  · unfold cfValidateStep
    rw [h.reads fun u => cfgValidate u.build u.cfg0 u.cfg1]
    split
    · exact h.ends (raiseError _)
    · exact h.ends fun u => finishOk (latchConfig _ u)
  · exact h.ended
  · exact h

theorem destroyStep (h : RunsAlike .destroy s s') : RunsAlike .destroy (destroyStep s) (destroyStep s') := by
  unfold Machine.destroyStep
  rw [h.st]
  split
  · exact h.dispatch
  · exact h.ends fun u => finishOk (tearDown u)
  · exact h.ended.map fun u => { u with curCmd := 0 }
  · exact h

/-! ### KEYGEN -/

/-- A candidate is five vectors put one after the other (R97). -/
theorem putCandidate_eq (c : Candidate) (s : State) : putCandidate c s =
    scratchPut .h c.h (scratchPut .bigG c.key.bigG (scratchPut .bigF c.key.bigF
      (scratchPut .g c.key.g (scratchPut .f c.key.f s)))) := by
  simp only [putCandidate, scratchPut]

theorem kgGenerateStep (h : RunsAlike .keygen s s') : RunsAlike .keygen (kgGenerateStep s) (kgGenerateStep s') := by
  unfold Machine.kgGenerateStep
  rw [h.reads State.genPort, h.ps]
  split
  · exact h
  · rename_i r _
    exact h.map fun u => { u with genPort := r }
  · rename_i r _
    have counted := h.forget.map (countCandidate r)
    rw [putCandidate_eq, putCandidate_eq]
    exact ((((counted.put .f _).put .g _).put .bigF _).put .bigG _).put .h _

theorem kgBasisStep (h : RunsAlike .keygen s s') (hst : s.st = .kgBasis) :
    RunsAlike .keygen (kgBasisStep C s) (kgBasisStep C s') := by
  unfold Machine.kgBasisStep
  rw [h.ps]
  exact (((h.at_st hst).holdBasis ..).map fun u => { u with st := .kgSample }).put .target _

theorem kgSampleStep (h : RunsAlike .keygen s s') (hst : s.st = .kgSample) :
    RunsAlike .keygen (kgSampleStep s) (kgSampleStep s') := by
  unfold Machine.kgSampleStep
  rw [h.reads State.sampPort, h.ps]
  split
  · exact h
  · rename_i r _
    exact (h.map fun u => { u with sampPort := r }).release.ends kgRestart
  · rename_i r _
    have drawn := (h.at_st hst).map fun u => { u with sampPort := r, st := .kgTest }
    exact release (drawn.put .s1 _)

theorem kgTestStep (h : RunsAlike .keygen s s') (hst : s.st = .kgTest) :
    RunsAlike .keygen (kgTestStep C s) (kgTestStep C s') := by
  have hx := h.at_st hst
  have hsigma : candidateSigma C s' = candidateSigma C s := by
    unfold candidateSigma
    rw [(hx.candidate (by decide)).1, h.reads fun u => basisFor C u (candidateKey s)]
  unfold Machine.kgTestStep
  rw [hsigma, h.ps, hx.held .s1 (by decide), h.reads fun u => kgAccept u.build]
  split
  · exact hx.map fun u => { u with st := .kgCommit }
  · exact h.ends kgRestart

theorem kgCommitStep (h : RunsAlike .keygen s s') (hst : s.st = .kgCommit) :
    RunsAlike .keygen (kgCommitStep C s) (kgCommitStep C s') := by
  obtain ⟨-, hpk⟩ := (h.at_st hst).candidate (by decide)
  have key := h.ends fun u => finishOk { u with
      pk := candidateH s
      status := { u.status with skValid := true, pkValid := true, basisValid := u.acfg.keep } }
  unfold Machine.kgCommitStep
  rw [hpk]
  exact ⟨key.pub, nofun⟩

theorem keygenStep (h : RunsAlike .keygen s s') : RunsAlike .keygen (keygenStep C s) (keygenStep C s') := by
  unfold Machine.keygenStep
  rw [h.st]
  split
  · exact h.dispatch
  · exact h.kgGenerateStep
  · exact h.kgBasisStep ‹_›
  · exact h.kgSampleStep ‹_›
  · exact h.kgTestStep ‹_›
  · exact h.kgCommitStep ‹_›
  · exact h.ended
  · exact h

/-! ### The key commands -/

theorem loadSkStep (h : RunsAlike .loadSk s s') : RunsAlike .loadSk (loadSkStep C s) (loadSkStep C s') := by
  unfold Machine.loadSkStep
  rw [h.st]
  split
  · exact h.dispatch
  · unfold loadSkDecodeStep
    rw [h.reads fun u => unpackWindow C u .sk (skSchema u.ps u.acfg)]
    split
    · rename_i f g bigF bigG _
      dsimp only
      rw [h.keep]
      split
      · exact h.ends fun u => { invalidateBasis (takeKey ⟨f, g, bigF, bigG⟩ u) with st := .kyBasis }
      · exact h.ends fun u => finishOk (installKey C (takeKey ⟨f, g, bigF, bigG⟩ u))
    · exact h.ends (raiseError _)
  · exact h.ends fun u => finishOk (installKey C u)
  · exact h.ended
  · exact h

theorem loadPkStep (h : RunsAlike .loadPk s s') : RunsAlike .loadPk (loadPkStep C s) (loadPkStep C s') := by
  unfold Machine.loadPkStep
  rw [h.st]
  split
  · exact h.dispatch
  · unfold loadPkDecodeStep
    rw [h.reads (decodedPk C)]
    split
    · exact h.ends fun u => finishOk (takePk C _ u)
    · exact h.ends (raiseError _)
  · exact h.ended
  · exact h

theorem storePkStep (h : RunsAlike .storePk s s') : RunsAlike .storePk (storePkStep C s) (storePkStep C s') := by
  unfold Machine.storePkStep
  rw [h.st]
  split
  · exact h.dispatch
  · exact h.ends fun u => finishOk (windowStore .pk (packPk C u) u)
  · exact h.ended
  · exact h

/-! ### The signing commands -/

theorem signBasisStep (h : RunsAlike i s s') : RunsAlike i (signBasisStep C s) (signBasisStep C s') :=
  (h.getBasis C).ends fun u => { u with st := .sgSample }

theorem signSampleStep (h : RunsAlike i s s') {two : Bool} (hl : live i .sgEncode = if two then [.s2, .s1] else [.s1]) :
    RunsAlike i (signSampleStep two s) (signSampleStep two s') := by
  unfold Machine.signSampleStep
  rw [h.reads State.sampPort, h.ps]
  split
  · exact h
  · rename_i r _
    exact (h.map fun u => { u with sampPort := r }).release.ends (signFail .samplingFailure)
  · rename_i r _
    have drawn := h.forget.map fun u => { u with sampPort := r, st := .sgEncode }
    refine release ?_
    cases two
    · show Alike (live i .sgEncode) _ _
      rw [hl]
      exact drawn.put .s1 _
    · show Alike (live i .sgEncode) _ _
      rw [hl]
      exact (drawn.put .s1 _).put .s2 _

/-- Of the same bytes both make the same window, and go on alike. -/
theorem signEncodeStep (h : RunsAlike i s s') (bytes : List Byte) {andThen : State → State}
    (hthen : RunsAlike i (andThen (windowStore .sig bytes s)) (andThen (windowStore .sig bytes s'))) :
    RunsAlike i (signEncodeStep bytes andThen s) (signEncodeStep bytes andThen s') := by
  unfold Machine.signEncodeStep
  rw [h.reads fun u => u.build.sigCap]
  split
  · exact h.ends (signFail .functionFailure)
  · exact hthen

theorem signStep (h : RunsAlike .sign s s') : RunsAlike .sign (signStep C s) (signStep C s') := by
  unfold Machine.signStep
  rw [h.st]
  split
  · exact h.dispatch
  · exact h.ends (signOracleStep C)
  · exact h.signBasisStep
  · exact h.signSampleStep rfl
  · rename_i hst
    rw [h.ps, (h.at_st hst).held .s1 (by decide), h.reads (packSig C)]
    exact h.signEncodeStep _ (h.ends fun u => finishOk (windowStore .sig _ u))
  · exact h.ended
  · exact h

theorem signRecStep (h : RunsAlike .signRec s s') : RunsAlike .signRec (signRecStep C s) (signRecStep C s') := by
  unfold Machine.signRecStep
  rw [h.st]
  split
  · exact h.dispatch
  · exact h.ends (signRecOracleStep C)
  · exact h.signBasisStep
  · exact h.signSampleStep rfl
  · rename_i hst
    have hx := h.at_st hst
    rw [h.ps, hx.held .s1 (by decide), hx.held .s2 (by decide), h.reads (packSig C)]
    exact h.signEncodeStep _ (h.ends fun u => { windowStore .sig _ u with st := .sgCompact })
  · exact h.ends signCompactStep
  · exact h.ended
  · exact h

/-! ### The verifying commands -/

theorem verifyStep (h : RunsAlike .verify s s') : RunsAlike .verify (verifyStep C s) (verifyStep C s') := by
  unfold Machine.verifyStep
  rw [h.st]
  split
  · exact h.dispatch
  · unfold verifyDecodeStep
    rw [h.reads fun u => unpackWindow C u .sig [sigElem u.ps u.acfg]]
    split
    · exact (h.forget.map fun u => { u with st := .vfOracle }).put .s1 _
    · exact h.ends reject
  · rename_i hst
    unfold verifyOracleStep
    rw [h.reads fun u => roMap C u.ps u.acfg.oracle (message u)]
    exact ((h.at_st hst).map fun u => { u with st := .vfNorm }).put .target _
  · rename_i hst
    have hx := h.at_st hst
    unfold verifyNormStep
    dsimp only
    rw [h.ps, hx.held .s1 (by decide), hx.held .target (by decide), h.reads fun u => verifyS2 u.build s.ps u.pk]
    split
    · exact h.ends accept
    · exact h.ends reject
  · exact h.ended
  · exact h

theorem verifyRecStep (h : RunsAlike .verifyRec s s') : RunsAlike .verifyRec (verifyRecStep C s) (verifyRecStep C s') := by
  unfold Machine.verifyRecStep
  rw [h.st]
  split
  · exact h.dispatch
  · unfold verifyRecDecodeStep
    rw [h.reads fun u => unpackWindow C u .sig [sigElem u.ps u.acfg, sigElem u.ps u.acfg]]
    split
    · exact ((h.forget.map fun u => { u with st := .vfNorm }).put .s1 _).put .s2 _
    · exact h.ends rejectRec
  · rename_i hst
    have hx := h.at_st hst
    unfold verifyRecNormStep
    rw [h.ps, hx.held .s1 (by decide), hx.held .s2 (by decide)]
    split
    · exact hx.map fun u => { u with st := .vfRecon }
    · exact h.ends rejectRec
  · rename_i hst
    have hx := h.at_st hst
    unfold verifyReconStep
    rw [h.ps, hx.held .s1 (by decide), hx.held .s2 (by decide), h.reads fun u => reconstruct u.build s.ps u.pk]
    exact (h.forget.map fun u => { u with st := .vfRecover }).put .t _
  · rename_i hst
    unfold verifyRecoverStep
    dsimp only
    rw [h.ps, (h.at_st hst).held .t (by decide), h.reads fun u => recoverM1 C s.ps u.acfg.oracle]
    split
    · exact ((h.forget.map fun u => { u with st := .vfMerge }).put .m1 _).put .t2 _
    · exact h.ends rejectRec
  · rename_i hst
    unfold verifyMergeStep
    rw [h.reads fun u => a1Of u.ps + u.msgLen.toNat, h.reads fun u => u.build.msgCap]
    split
    · exact h.ends rejectRec
    · exact (h.at_st hst).map fun u => { u with st := .vfTag }
  · rename_i hst
    have hx := h.at_st hst
    have hmerged : mergedMessage s' = mergedMessage s := by
      unfold mergedMessage
      rw [h.ps, hx.held .m1 (by decide), h.reads message, h.reads fun u => u.build.bitOrder]
    unfold verifyTagStep
    dsimp only
    rw [h.ps, hmerged, hx.held .t2 (by decide), h.reads fun u => roTag C s.ps u.acfg.oracle]
    split
    · exact h.ends fun u => accept (windowStore .msg _ u)
    · exact h.ends rejectRec
  · exact h.ended
  · exact h

/-! ### Every transition and every run -/

theorem transition (h : RunsAlike i s s') (hi : i ≠ .storeSk) :
    RunsAlike i (transition C i s) (transition C i s') := by
  cases i
  case configure => exact h.configureStep
  case destroy => exact h.destroyStep
  case keygen => exact h.keygenStep
  case loadSk => exact h.loadSkStep
  case loadPk => exact h.loadPkStep
  case storeSk => exact absurd rfl hi
  case storePk => exact h.storePkStep
  case sign => exact h.signStep
  case signRec => exact h.signRecStep
  case verify => exact h.verifyStep
  case verifyRec => exact h.verifyRecStep

/-- Both wait, or neither (R48). -/
theorem move (h : RunsAlike i s s') (hi : i ≠ .storeSk) :
    RunsAlike i (whenAnswered C i (Machine.transition C i) s) (whenAnswered C i (Machine.transition C i) s') := by
  unfold whenAnswered
  rw [h.reads (unanswered C i)]
  split
  · exact h
  · exact h.transition hi

theorem run (h : RunsAlike i s s') (hi : i ≠ .storeSk) (n : Nat) :
    RunsAlike i (runSteps (whenAnswered C i (Machine.transition C i)) n s)
      (runSteps (whenAnswered C i (Machine.transition C i)) n s') := by
  induction n generalizing s s' with
  | zero => exact h
  | succ n ih =>
    unfold runSteps
    rw [h.reads fun u => u.status.busy]
    split
    · exact ih (h.move hi)
    · exact h

end RunsAlike

/-- Settles O50: in DISPATCH a command has nothing of SCRATCH to read, and every move of the two runs is alike. -/
theorem onlyStoreSkRevealsTheKey : Obligations.OnlyStoreSkRevealsTheKey := by
  intro i s s' t t' hi hd hpub ht ht'
  rw [exec_eq_runCommand] at ht ht'
  obtain ⟨-, rfl⟩ := runCommand_next ht
  obtain ⟨-, rfl⟩ := runCommand_next ht'
  have hstart : RunsAlike i s s' := by
    unfold RunsAlike
    rw [hd.2]
    exact ⟨hpub.symm, nofun⟩
  rw [hstart.reads enoughSteps]
  exact (hstart.run hi _).pub.symm

end Sys2Proof.Proofs.Noninterference
end

section
/-! The reset (70_reset_and_hazards.md R139, R140): what the reset state shows, when the reset input takes effect, and the base case
of the step invariants. -/

namespace Sys2Proof.Proofs.Reset

open Sys2Proof Sys2Proof.Machine Sys2Proof.Claims Sys2Proof.Proofs.Invariants Sys2Proof.Proofs.BasisOfKey
  Sys2Proof.Proofs.StepInvariants Sys2Proof.Proofs.KeyRanges Sys2Proof.Proofs.Memory

/-- The registers that read a constant of the build (R15, R16, R24). -/
def constantRegs : List Reg := [.id, .caps, .msgCapR, .sigCapR, .pkCapR, .skCapR, .nMaxR]

/-- STATUS reads 0 in the reset state: no flag, no outcome, FSM_STATE = UNCONFIGURED (R19, R139). -/
theorem statusWord_powerOn (b : Build) : statusWord (State.powerOn b) = 0 := by
  simp only [statusWord, State.powerOn, Status.zero, fsmCode, errBits]
  decide

/-- CTRL reads 0 in the reset state (R20, R139). -/
theorem ctrlWord_powerOn (b : Build) : ctrlWord (State.powerOn b) = 0 := by simp [ctrlWord, State.powerOn]

/-- Every register that is no constant of the build reads 0 in the reset state (R139). -/
theorem readReg_powerOn {r : Reg} (hr : r ∉ constantRegs) (b : Build) : readReg (State.powerOn b) r = 0 := by
  cases r with
  | id | caps | msgCapR | sigCapR | pkCapR | skCapR | nMaxR => exact absurd hr (by decide)
  | status => exact statusWord_powerOn b
  | ctrl => exact ctrlWord_powerOn b
  | cfg0 | cfg1 | cmd | msgLen | sigLen | pkLen | skLen | kgAttempts | verifiedCnt | unverifiedCnt | pN | pQ | pQBits
  | pFgBits | pFguBits | pK | pL1 => rfl

/-- An instance meets its design-time constraints (R7). -/
theorem config_build_wf : Config.build.wf = true := Config.checkedBuild.ok

/-- Settles O7: the constants, the registers that read 0, the empty stores, and the wait of an idle block. -/
theorem resetLeavesTheResetTable : Obligations.ResetLeavesTheResetTable := by
  obtain ⟨hwaits, -, -⟩ := accessesLandOneAtATime State.reset
  exact ⟨rfl, rfl, fun r hr => readReg_powerOn (by revert r; decide) _, rfl, rfl, rfl, rfl, rfl, rfl, rfl,
    fun _ => ⟨rfl, rfl, rfl, rfl, rfl, rfl⟩, rfl, rfl, rfl, fun _ => rfl, rfl, rfl, hwaits rfl rfl⟩

/-- Settles O8: the reset input is an access whose moment has come, and its effect is the reset of the block. -/
theorem resetInputAbandonsTheCommand : Obligations.ResetInputAbandonsTheCommand := by
  intro s a r hi hrst hnow
  obtain ⟨-, hlands, -⟩ := accessesLandOneAtATime s
  have hstep : step s = .next (hostEvent a.event { s with inbox := r }) := hlands a r hi hnow
  rw [hstep, hrst]
  rfl

/-- Settles O59: the reset state idles, with no outcome, no valid key, no configuration and zero working stores. -/
theorem resetMeetsTheInvariants : Obligations.ResetMeetsTheInvariants :=
  have hidle : State.reset.status.busy = true → State.reset.st ∈ unconfiguredStates := fun h => absurd h Bool.false_ne_true
  ⟨reset_mem_wf, controlInv_of_ended rfl rfl, scrubInv_zero rfl rfl, outcomeInv_none ⟨rfl, rfl, rfl, rfl⟩,
    basisInv_unkeyed (idleState_not_rebuilding State.reset.status) rfl rfl,
    keyInv_unkeyed config_build_wf rfl rfl (not_holdsCandidate_idle State.reset.status),
    configInv_unconfigured rfl ⟨rfl, rfl, rfl, rfl⟩ hidle⟩

end Sys2Proof.Proofs.Reset
end
